-- ==== Sys2Proof/Word.lean ====
section
/-! DEFINITION. The widths of the core's values (spec/00_scope.md R6, R8): byte, word, tick count.
All arithmetic on them is unsigned and modular (R21, R126), which is what `BitVec` arithmetic is.
The byte-order and bit-field helpers stand in Machine/Bits.lean. -/

namespace Sys2Proof

/-- R6, R8: a byte is 8 bits. -/
abbrev Byte := BitVec 8

/-- R6, R8: a word is 16 bits; addresses, SP, PC and the register pairs are words. -/
abbrev Word := BitVec 16

/-- R6, R32: the tick counter is 64 bits wide. -/
abbrev Ticks := BitVec 64

end Sys2Proof
end

