-- ==== Sys2Proof/Machine/Bits.lean ====
section
/-! DEFINITION. Byte composition and single-bit access (spec/00_scope.md R8): the byte-order and bit-field
helpers that the decoder, the bus and the register views share. -/

namespace Sys2Proof

/-- R8: `cat(h, l)`, the word `(h << 8) | l`. -/
def cat (h l : Byte) : Word := h ++ l

/-- R8: `v[15:8]`. -/
def hiByte (v : Word) : Byte := v.extractLsb' 8 8

/-- R8: `v[7:0]`. -/
def loByte (v : Word) : Byte := v.extractLsb' 0 8

/-- R8: `zext_16(b)`, the word with the same numeric value as the byte `b`. -/
def zext16 (b : Byte) : Word := cat 0x00#8 b

/-- R8: `v[i]`. -/
def getBit (v : Byte) (i : Nat) : Bool := v.getLsbD i

/-- R9: force bit `i` of `v` to `b` and leave the other seven bits as they were.
R27 and R127 ask for a forced assignment, never a toggle. -/
def setBit (v : Byte) (i : Nat) (b : Bool) : Byte :=
  if b then v ||| (1#8 <<< i) else v &&& ~~~(1#8 <<< i)

/-- R8: the low nibble `v[3:0]`. -/
def lowNibble (v : Byte) : BitVec 4 := v.extractLsb' 0 4

/-- A flag as the bit 0 or 1 of a byte (R9 reads `F.C` as 0 or 1). -/
def bit0 (b : Bool) : Byte := if b then 0x01#8 else 0x00#8

end Sys2Proof
end

