-- ==== Sys2Proof/Syntax.lean ====
section
/-! DEFINITION. The instruction set as data: one constructor per row of spec/opcode_table.json
(spec/30_encoding.md R86, in opcode order). Registers are fixed by the opcode (R85), so the only
operands are the immediates of the formats OI8 and OI16 (R82, R83). -/

namespace Sys2Proof

/-- The instruction formats of R81, R82 and R83. -/
inductive Format where
  /-- R81: the opcode alone. -/
  | o
  /-- R82: the opcode and an 8-bit immediate. -/
  | oi8
  /-- R83: the opcode and a 16-bit immediate, low byte first. -/
  | oi16
  deriving DecidableEq, Repr

/-- R80 to R83: the encoded length in bytes, a property of the format. -/
def Format.length : Format → Nat
  | .o => 1
  | .oi8 => 2
  | .oi16 => 3

/-- The sixteen instructions of R86. -/
inductive Instr where
  /-- 0x00 NOP, R110. -/
  | nop
  /-- 0x01 LD BC,d16, R130. -/
  | ldBcD16 (d16 : Word)
  /-- 0x02 LD (BC),A, R131. -/
  | ldIBcA
  /-- 0x03 INC BC, R140. -/
  | incBc
  /-- 0x04 INC B, R142. -/
  | incB
  /-- 0x05 DEC B, R143. -/
  | decB
  /-- 0x06 LD B,d8, R132. -/
  | ldBD8 (d8 : Byte)
  /-- 0x07 RLCA, R150. -/
  | rlca
  /-- 0x08 LD (a16),SP, R134. -/
  | ldIA16Sp (a16 : Word)
  /-- 0x09 ADD HL,BC, R152. -/
  | addHlBc
  /-- 0x0A LD A,(BC), R135. -/
  | ldAIBc
  /-- 0x0B DEC BC, R141. -/
  | decBc
  /-- 0x0C INC C, R144. -/
  | incC
  /-- 0x0D DEC C, R145. -/
  | decC
  /-- 0x0E LD C,d8, R133. -/
  | ldCD8 (d8 : Byte)
  /-- 0x0F RRCA, R151. -/
  | rrca
  deriving DecidableEq, Repr

end Sys2Proof
end

