-- ==== Sys2Proof/WellFormed.lean ====
section
/-! DEFINITION. Well-formedness. An `Instr` has nothing to check: R89 makes every value of d8, d16 and a16 legal and
the types hold exactly those values. A list of bytes has: it must be ONE whole instruction, that is an opcode
byte with a format (R81 to R83 list the opcodes of each) followed by exactly that format's operand bytes. -/

namespace Sys2Proof

/-- R89: "Operand bytes are unconstrained: every value of d8, d16 and a16 is legal." -/
def Instr.wellFormed : Instr → Bool
  | .nop => true
  | .ldBcD16 _ => true
  | .ldIBcA => true
  | .incBc => true
  | .incB => true
  | .decB => true
  | .ldBD8 _ => true
  | .rlca => true
  | .ldIA16Sp _ => true
  | .addHlBc => true
  | .ldAIBc => true
  | .decBc => true
  | .incC => true
  | .decC => true
  | .ldCD8 _ => true
  | .rrca => true

/-- The opcodes R81 lists for format O. -/
def formatOOpcodes : List Nat :=
  [0x00, 0x02, 0x03, 0x04, 0x05, 0x07, 0x09, 0x0A, 0x0B, 0x0C, 0x0D, 0x0F]

/-- The opcodes R82 lists for format OI8. -/
def formatOI8Opcodes : List Nat := [0x06, 0x0E]

/-- The opcodes R83 lists for format OI16. -/
def formatOI16Opcodes : List Nat := [0x01, 0x08]

/-- The format of an opcode byte by the lists of R81 to R83; none for an unmapped opcode (R88). -/
def formatOf (op : Byte) : Option Format :=
  if op.toNat ∈ formatOOpcodes then some .o
  else if op.toNat ∈ formatOI8Opcodes then some .oi8
  else if op.toNat ∈ formatOI16Opcodes then some .oi16
  else none

/-- R80 to R83: the bytes are one whole instruction. Three checks: there is an opcode byte; the
opcode has a format; the number of operand bytes is the format's. -/
def wellFormedEncoding (bytes : List Byte) : Bool :=
  match bytes with
  | [] => false
  | op :: rest =>
    match formatOf op with
    | none => false
    | some fmt => rest.length + 1 == fmt.length

end Sys2Proof
end

