-- ==== Sys2Proof/Decode.lean ====
section
/-! DEFINITION. The instruction descriptor table, operand assembly, the decoder, and after it the encoder
(spec/30_encoding.md R80 to R93; spec/10_state.md R33). The table is a constant, not state (R33).
Which instruction each opcode number is: the source fixes 0x00, 0x01, 0x07 and 0x09, the spec's decisions D3 and D4
the other twelve (log 1). -/

namespace Sys2Proof

/-- R33: the static metadata of one opcode. `operation` is the handler: the instruction that the engine
runs when it is given the 16-bit parameter `imm16`. -/
structure Descriptor where
  /-- R91: the display string. -/
  name : String
  /-- R81 to R83. -/
  format : Format
  /-- R198: the tick cost. -/
  ticks : Nat
  /-- R105: the operation, given `imm16`. -/
  operation : Word → Instr

/-- R80: "total encoded length in bytes", opcode and operand bytes. -/
def Descriptor.length (d : Descriptor) : Nat := d.format.length

/-- R86: the sixteen rows, and R88: no descriptor for 0x10 to 0xFF. All eight bits are compared (R85). -/
def lookup (op : Byte) : Option Descriptor :=
  match op.toNat with
  | 0x00 => some ⟨"NOP", .o, 4, fun _ => .nop⟩
  | 0x01 => some ⟨"LD BC,d16", .oi16, 12, fun imm16 => .ldBcD16 imm16⟩
  | 0x02 => some ⟨"LD (BC),A", .o, 8, fun _ => .ldIBcA⟩
  | 0x03 => some ⟨"INC BC", .o, 8, fun _ => .incBc⟩
  | 0x04 => some ⟨"INC B", .o, 4, fun _ => .incB⟩
  | 0x05 => some ⟨"DEC B", .o, 4, fun _ => .decB⟩
  | 0x06 => some ⟨"LD B,d8", .oi8, 8, fun imm16 => .ldBD8 (loByte imm16)⟩
  | 0x07 => some ⟨"RLCA", .o, 4, fun _ => .rlca⟩
  | 0x08 => some ⟨"LD (a16),SP", .oi16, 20, fun imm16 => .ldIA16Sp imm16⟩
  | 0x09 => some ⟨"ADD HL,BC", .o, 8, fun _ => .addHlBc⟩
  | 0x0A => some ⟨"LD A,(BC)", .o, 8, fun _ => .ldAIBc⟩
  | 0x0B => some ⟨"DEC BC", .o, 8, fun _ => .decBc⟩
  | 0x0C => some ⟨"INC C", .o, 4, fun _ => .incC⟩
  | 0x0D => some ⟨"DEC C", .o, 4, fun _ => .decC⟩
  | 0x0E => some ⟨"LD C,d8", .oi8, 8, fun imm16 => .ldCD8 (loByte imm16)⟩
  | 0x0F => some ⟨"RRCA", .o, 4, fun _ => .rrca⟩
  | _ => none

/-- R84: `imm16` from the operand bytes, little-endian; zero when there are none, and a zero high byte for a
one-byte operand (D9: no operation reads that byte). -/
def immediate : List Byte → Word
  | [] => 0x0000#16
  | [b1] => zext16 b1
  | b1 :: b2 :: _ => cat b2 b1

/-- Why a list of bytes is no instruction. -/
inductive DecodeError where
  /-- R88: the first byte has no descriptor. -/
  | unmappedOpcode (op : Byte)
  /-- The list ends before the instruction does (R80). -/
  | truncated
  deriving DecidableEq, Repr

/-- R80, R84: read one instruction from the front of a list of bytes; answer it and the bytes after it. -/
def decode (bytes : List Byte) : Except DecodeError (Instr × List Byte) :=
  match bytes with
  | [] => .error .truncated
  | op :: rest =>
    match lookup op with
    | none => .error (.unmappedOpcode op)
    | some d =>
      if rest.length < d.length - 1 then .error .truncated
      else .ok (d.operation (immediate (rest.take (d.length - 1))), rest.drop (d.length - 1))

/-- An instruction's bytes from the bits of its opcode-table row: bit 0 is the least significant bit of the first
byte, `nbits` bits are given, and the bits above them are zero up to the longest instruction (three bytes, R80). -/
def tableBytes (nbits w : Nat) : List Byte :=
  let v := w % 2 ^ nbits
  [BitVec.ofNat 8 v, BitVec.ofNat 8 (v / 256), BitVec.ofNat 8 (v / 65536)]

/-- What the decoder reads from an instruction given as the bits of its opcode-table row. -/
def decodeTableWord (nbits w : Nat) : Option Instr :=
  match decode (tableBytes nbits w) with
  | .ok (i, _) => some i
  | .error _ => none

/-- R81: the encoding of a format O instruction. -/
def encodeO (op : Byte) : List Byte := [op]

/-- R82: the encoding of a format OI8 instruction. -/
def encodeOI8 (op d8 : Byte) : List Byte := [op, d8]

/-- R83: the encoding of a format OI16 instruction, low byte first. -/
def encodeOI16 (op : Byte) (v : Word) : List Byte := [op, loByte v, hiByte v]

/-- The bytes of an instruction, written from the "Encoding" line of each instruction's own rule
(R110, R130 to R135, R140 to R145, R150 to R152). -/
def encode : Instr → List Byte
  | .nop => encodeO 0x00#8
  | .ldBcD16 d16 => encodeOI16 0x01#8 d16
  | .ldIBcA => encodeO 0x02#8
  | .incBc => encodeO 0x03#8
  | .incB => encodeO 0x04#8
  | .decB => encodeO 0x05#8
  | .ldBD8 d8 => encodeOI8 0x06#8 d8
  | .rlca => encodeO 0x07#8
  | .ldIA16Sp a16 => encodeOI16 0x08#8 a16
  | .addHlBc => encodeO 0x09#8
  | .ldAIBc => encodeO 0x0A#8
  | .decBc => encodeO 0x0B#8
  | .incC => encodeO 0x0C#8
  | .decC => encodeO 0x0D#8
  | .ldCD8 d8 => encodeOI8 0x0E#8 d8
  | .rrca => encodeO 0x0F#8

/-- The number of bytes of an instruction. -/
def Instr.length (i : Instr) : Nat := (encode i).length

/-- The tick cost that an instruction's descriptor declares (R106: a static property of its opcode). -/
def Instr.ticks (i : Instr) : Nat :=
  match encode i with
  | [] => 0
  | op :: _ =>
    match lookup op with
    | none => 0
    | some d => d.ticks

end Sys2Proof
end

