-- ==== Sys2Proof/Config.lean ====
section
/-! DEFINITION. The core's open parameters (spec/00_scope.md R7), as types.
The VALUES that a later test could contradict stand where a repair may mend them: ROT_RIGHT_MODE (D4, log 3) and
FLAG_POS (D1, log 2) in Machine/Flags.lean, OPMAP (D3, log 1) in Decode.lean. INIT (D2, log 4) is
Machine.State.reset; every statement quantifies over all states, so none depends on it but those about reset.
BUS (D6, log 5) is the plain memory of Machine/Ops.lean, with what unplaced memory reads as. TICK_WRAP (D15, log 6) is the 64-bit type `Ticks`. -/

namespace Sys2Proof

/-- R7, R123: what enters bit 7 of the accumulator at opcode 0x0F. -/
inductive RotRightMode where
  /-- The old carry flag enters: the value the spec takes. -/
  | throughCarry
  /-- The old bit 0 enters: the alternative the spec names. -/
  | circular
  deriving DecidableEq, Repr

end Sys2Proof
end

