-- ==== Sys2Proof/Machine/State.lean ====
section
/-! DEFINITION. The state of the machine (spec/10_state.md R20, R37, R38; spec/60_exceptions.md R162, R163) as plain
data, and its value right after `initialize()`. Register pairs are views, not storage (R25), and the fetched
opcode and `imm16` die within a step (R35), so neither is a field. -/

namespace Sys2Proof.Machine

/-- The core's one exception as a value (R162). No step of this machine answers `Outcome.fault`: the state after
the error is fully defined (R161), so the step that raises it answers that state, with this value in its
fault mark (R163), and the front-end is handed the value (R177, `frontStep`). -/
inductive Fault where
  /-- R160, R162: `UnmappedOpcode(op, at)`, `op` the offending byte and `addr` the address it was fetched from.
  Raised by `step` at the descriptor lookup; safe, for nothing is lost: the state after it is the spec's. -/
  | unmappedOpcode (op : Byte) (addr : Word)
  deriving DecidableEq, Repr

/-- Why a step, or a call of the host interface, has no meaning. -/
inductive Refusal where
  /-- `exec` would answer this for an instruction without a meaning; there is none. Safe. -/
  | notModelled (mnemonic : String)
  /-- R193, D14: `step()` before `initialize()`. Raised by `step`. Safe. -/
  | notInitialized
  /-- R193, D14: a second `initialize()`. Raised by `hostInit`. Safe. -/
  | alreadyInitialized
  deriving DecidableEq, Repr

/-- R56: the memory behind the bus, as the list of the bytes that differ from what an unlisted address reads as
(log 5), at strictly rising addresses (`Memory.wf`). -/
abbrev Memory := List Host.Cell

/-- R20: the whole state of the core, with the memory behind the bus (R56), `initialized` (R37) and the model's
fault mark (R163). -/
structure State where
  /-- R22: the accumulator. -/
  a : Byte
  /-- R22. -/
  b : Byte
  /-- R22: the register C, which is not the carry flag. -/
  c : Byte
  /-- R22, R23: no instruction reads or writes it. -/
  d : Byte
  /-- R22, R23: no instruction reads or writes it. -/
  e : Byte
  /-- R22. -/
  h : Byte
  /-- R22. -/
  l : Byte
  /-- R24, R26: the flags register; its low nibble is zero. -/
  f : Byte
  /-- R28: the stack pointer. -/
  sp : Word
  /-- R29: the program counter. -/
  pc : Word
  /-- R32: TICKS. -/
  ticks : Ticks
  /-- R56: the memory behind the bus. -/
  mem : Memory
  /-- R37: whether `initialize()` has been called. -/
  initialized : Bool
  /-- R163: the model's fault mark, holding the first UnmappedOpcode raised (log 7). -/
  faultMark : Option Fault
  deriving DecidableEq, Repr

/-- R38, R191: the state after `initialize()` (D2, log 4), with memory as the front-end finds it when it has
placed nothing (log 5). -/
def State.reset : State where
  a := 0x00#8
  b := 0x00#8
  c := 0x00#8
  d := 0x00#8
  e := 0x00#8
  h := 0x00#8
  l := 0x00#8
  f := 0x00#8
  sp := 0x0000#16
  pc := 0x0000#16
  ticks := 0#64
  mem := []
  initialized := true
  faultMark := none

end Sys2Proof.Machine
end

