-- ==== Sys2Proof/Machine/Ops.lean ====
section
/-! DEFINITION. The shared operations: memory behind the bus (spec/20_memory.md R50 to R56), the sequential advance
of PC (R30), tick accounting (R106), fetching an instruction (R100 steps 1 to 4), and raising the core's one
exception (R160 to R163). There is no return from an exception to model: R168 says that there is no
return-from-trap instruction and nothing to restore. -/

namespace Sys2Proof.Machine

/-- What a byte of memory that the front-end did not place reads as.
DESIGN CHOICE (log 5): R56 and R38 leave the initial content of memory to an argument of the model. -/
def unlistedByte : Byte := 0x00#8

/-- The byte listed at an address, or what an unlisted address reads as. -/
def readCell : Memory → Nat → Byte
  | [], _ => unlistedByte
  | (k, v) :: m, a => if k = a then v else readCell m a

/-- Put a cell into a list sorted by address, before the first cell of a higher address. -/
def insertCell (a : Nat) (v : Byte) : Memory → Memory
  | [] => [(a, v)]
  | (k, w) :: m => if a < k then (a, v) :: (k, w) :: m else (k, w) :: insertCell a v m

/-- The cells at every other address. -/
def dropCell (a : Nat) (m : Memory) : Memory := m.filter (fun cell => cell.1 ≠ a)

/-- R51: `MemRead(a, 1)`. It changes nothing and never fails. -/
def readByte (m : Memory) (a : Word) : Byte := readCell m a.toNat

/-- R52, R56: `MemWrite(a, 1, v)`. Only the addressed byte changes, and the list keeps its canonical form: a byte
that reads as an unlisted address does is not listed. -/
def writeByte (m : Memory) (a : Word) (v : Byte) : Memory :=
  if v = unlistedByte then dropCell a.toNat m
  else insertCell a.toNat v (dropCell a.toNat m)

/-- R53: `MemRead(a, 2)`, little-endian, the next address after 0xFFFF being 0x0000 (D7). -/
def readWord (m : Memory) (a : Word) : Word := cat (readByte m (a + 1)) (readByte m a)

/-- R54: `MemWrite(a, 2, v)`: the low byte at `a`, then the high byte at the next address modulo 2^16 (D7). -/
def writeWord (m : Memory) (a : Word) (v : Word) : Memory :=
  writeByte (writeByte m a (loByte v)) (a + 1) (hiByte v)

/-- R68: `n` byte reads at ascending addresses, modulo 2^16. -/
def readBytes (m : Memory) (a : Word) : Nat → List Byte
  | 0 => []
  | n + 1 => readByte m a :: readBytes m (a + 1) n

/-- Byte writes at ascending addresses, modulo 2^16: how a front-end places a program (R177). -/
def writeBytes (m : Memory) (a : Word) : List Byte → Memory
  | [] => m
  | b :: bs => writeBytes (writeByte m a b) (a + 1) bs

/-- The canonical form of a memory from address `lo` up: addresses strictly rising, inside the 2^16 addresses
of R36, no byte listed that equals what an unlisted address reads as. -/
def Memory.wfFrom (lo : Nat) : Memory → Bool
  | [] => true
  | (k, v) :: m => decide (lo ≤ k) && decide (k < 65536) && decide (v ≠ unlistedByte) && Memory.wfFrom (k + 1) m

/-- The canonical form of a memory. -/
def Memory.wf (m : Memory) : Bool := Memory.wfFrom 0 m

/-- R30: `PC <- trunc16(PC + n)`. -/
def advancePc (n : Nat) (s : State) : State := { s with pc := s.pc + BitVec.ofNat 16 n }

/-- R32, R106: `TICKS <- (TICKS + t) mod 2^64` (D15, log 6). -/
def addTicks (t : Nat) (s : State) : State := { s with ticks := s.ticks + BitVec.ofNat 64 t }

/-- R100 step 6: tick accounting after an operation, whatever the operation did. -/
def thenTicks (t : Nat) : Host.Outcome State Fault Refusal → Host.Outcome State Fault Refusal
  | .next s => .next (addTicks t s)
  | .fault r => .fault r
  | .refused r => .refused r

/-- R162: the error value of a step whose lookup failed; PC has already moved past the opcode byte (R102), so
the address is `trunc16(PC - 1)` (R100 step 3). -/
def unmappedFault (op : Byte) (s : State) : Fault := .unmappedOpcode op (s.pc - 1)

/-- R160, R161, R163: raise UnmappedOpcode in a state whose PC has moved past the opcode byte. Nothing changes but
the fault mark, which a later error does not change (log 7). -/
def raiseUnmappedOpcode (op : Byte) (s : State) : State :=
  { s with faultMark := s.faultMark.or (some (unmappedFault op s)) }

/-- What steps 1 to 4 of R100 give. -/
inductive Fetched where
  /-- The lookup failed; PC is past the opcode byte. -/
  | unmapped (op : Byte) (s : State)
  /-- The instruction to run, its tick cost, and the state with PC past the whole instruction. -/
  | mapped (i : Instr) (ticks : Nat) (s : State)
  deriving DecidableEq, Repr

/-- R100 steps 1 to 4: fetch the opcode, advance PC, look the descriptor up, read its operand bytes at the advanced
PC and advance past them. -/
def fetch (s : State) : Fetched :=
  let op := readByte s.mem s.pc
  let s1 := advancePc 1 s
  match lookup op with
  | none => .unmapped op s1
  | some d =>
    let operands := readBytes s1.mem s1.pc (d.length - 1)
    .mapped (d.operation (immediate operands)) d.ticks (advancePc (d.length - 1) s1)

end Sys2Proof.Machine
end

