-- ==== Sys2Proof/Machine/Operands.lean ====
section
/-! DEFINITION. The register file's accessors (spec/10_state.md R22, R25) and the addressing modes
(spec/42_loads_stores.md R136). Every read and write of a register by an instruction goes through them. -/

namespace Sys2Proof.Machine

/-- R20: the eight 8-bit registers. -/
inductive Reg8 where
  | a | b | c | d | e | h | l | f
  deriving DecidableEq, Repr

/-- R25: the register pairs. The source names BC and HL; DE and AF are the spec's D11. -/
inductive Pair where
  | bc | de | hl | af
  deriving DecidableEq, Repr

/-- R22: read an 8-bit register; no side effect. -/
def get8 : Reg8 → State → Byte
  | .a, s => s.a
  | .b, s => s.b
  | .c, s => s.c
  | .d, s => s.d
  | .e, s => s.e
  | .h, s => s.h
  | .l, s => s.l
  | .f, s => s.f

/-- R22: write an 8-bit register; nothing else changes. A write of F as a byte keeps its low nibble zero, as R25
says of a write through AF and R26 of every moment (log 8). -/
def set8 : Reg8 → Byte → State → State
  | .a, v, s => { s with a := v }
  | .b, v, s => { s with b := v }
  | .c, v, s => { s with c := v }
  | .d, v, s => { s with d := v }
  | .e, v, s => { s with e := v }
  | .h, v, s => { s with h := v }
  | .l, v, s => { s with l := v }
  | .f, v, s => { s with f := v &&& 0xF0#8 }

/-- R25: the register that holds a pair's bits 15:8. -/
def Pair.high : Pair → Reg8
  | .bc => .b
  | .de => .d
  | .hl => .h
  | .af => .a

/-- R25: the register that holds a pair's bits 7:0. -/
def Pair.low : Pair → Reg8
  | .bc => .c
  | .de => .e
  | .hl => .l
  | .af => .f

/-- R25: reading a pair composes its two registers as `(high << 8) | low`. -/
def getPair (p : Pair) (s : State) : Word := cat (get8 p.high s) (get8 p.low s)

/-- R25: writing a pair splits the word into its two registers. -/
def setPair (p : Pair) (v : Word) (s : State) : State :=
  set8 p.low (loByte v) (set8 p.high (hiByte v) s)

/-- R136: the addressing modes that form an effective address. The third mode of R136, immediate, forms none: its
value is the operand of the `Instr` itself. -/
inductive AddrMode where
  /-- Register indirect through BC. -/
  | indirectBc
  /-- Absolute: the address is the 16-bit immediate. -/
  | absolute (a16 : Word)
  deriving DecidableEq, Repr

/-- R136: the effective address. No mode modifies its base register. -/
def effectiveAddress : AddrMode → State → Word
  | .indirectBc, s => getPair .bc s
  | .absolute a16, _ => a16

/-- R51: a byte load from the bus. -/
def loadByte (m : AddrMode) (s : State) : Byte := readByte s.mem (effectiveAddress m s)

/-- R52: a byte store to the bus. -/
def storeByte (m : AddrMode) (v : Byte) (s : State) : State :=
  { s with mem := writeByte s.mem (effectiveAddress m s) v }

/-- R54: a word store to the bus, at any address (R57). -/
def storeWord (m : AddrMode) (v : Word) (s : State) : State :=
  { s with mem := writeWord s.mem (effectiveAddress m s) v }

end Sys2Proof.Machine
end

