-- ==== Sys2Proof/Machine/Flags.lean ====
section
/-! DEFINITION. The flags register's fields (spec/10_state.md R24, R27) and the five ALU functions
(spec/41_alu.md R120 to R128). The functions are pure and total (R125) and speak of flags by name; only the
four positions below know where a flag sits in F. -/

namespace Sys2Proof.Machine

/-- FLAG_POS, R24, D1 (log 2): Z is bit 7 of F. -/
def zBit : Nat := 7

/-- FLAG_POS, R24, D1 (log 2): N is bit 6 of F. -/
def nBit : Nat := 6

/-- FLAG_POS, R24, D1 (log 2): H is bit 5 of F. -/
def hBit : Nat := 5

/-- FLAG_POS, R24, D1 (log 2): C is bit 4 of F. -/
def cBit : Nat := 4

/-- ROT_RIGHT_MODE, R123, D4 (log 3): the value the spec takes. -/
def rotRightMode : RotRightMode := .throughCarry

/-- The four flags `(Z, N, H, C)` (R24). -/
structure Flags where
  /-- Zero. -/
  z : Bool
  /-- Negative, also called subtract. -/
  n : Bool
  /-- Half-carry. -/
  h : Bool
  /-- Carry. -/
  c : Bool
  deriving DecidableEq, Repr

/-- `(F.Z, F.N, F.H, F.C)` (R9). -/
def getFlags (s : State) : Flags :=
  ⟨getBit s.f zBit, getBit s.f nBit, getBit s.f hBit, getBit s.f cBit⟩

/-- `F.Z <- z; F.N <- n; F.H <- h; F.C <- c` (R9): four forced bits, the other four bits of F as they were. -/
def setFlags (fl : Flags) (s : State) : State :=
  { s with f := setBit (setBit (setBit (setBit s.f zBit fl.z) nBit fl.n) hBit fl.h) cBit fl.c }

/-- `F.N <- n; F.H <- h; F.C <- c` (R152): Z is not written. -/
def setFlagsNHC (fl : Flags) (s : State) : State :=
  { s with f := setBit (setBit (setBit s.f nBit fl.n) hBit fl.h) cBit fl.c }

/-- R120: increment of a byte. -/
def inc8 (v : Byte) (fl : Flags) : Byte × Flags :=
  (v + 1, ⟨decide (v + 1 = 0x00#8), false, decide (lowNibble v = 0xF#4), fl.c⟩)

/-- R121: decrement of a byte. -/
def dec8 (v : Byte) (fl : Flags) : Byte × Flags :=
  (v - 1, ⟨decide (v - 1 = 0x00#8), true, decide (lowNibble v = 0x0#4), fl.c⟩)

/-- R122: rotate left through the carry flag, nine bits; not the circular rotate of a real Game Boy CPU
(90_conflicts.md C2). -/
def rl8 (v : Byte) (fl : Flags) : Byte × Flags :=
  ((v <<< 1) ||| bit0 fl.c, ⟨false, false, false, getBit v 7⟩)

/-- R123: the bit that enters at bit 7 of a right rotate. -/
def rotRightIn (mode : RotRightMode) (v : Byte) (fl : Flags) : Bool :=
  match mode with
  | .throughCarry => fl.c
  | .circular => getBit v 0

/-- R123: rotate right (the whole rule is the spec's own, D4, log 3). -/
def rr8 (mode : RotRightMode) (v : Byte) (fl : Flags) : Byte × Flags :=
  ((bit0 (rotRightIn mode v fl) <<< 7) ||| (v >>> 1), ⟨false, false, false, getBit v 0⟩)

/-- R124: addition of two words. Z is kept, and there is no carry-in. -/
def add16 (a b : Word) (fl : Flags) : Word × Flags :=
  (a + b,
    ⟨fl.z, false, decide (a.toNat % 4096 + b.toNat % 4096 > 0x0FFF), decide (a.toNat + b.toNat > 0xFFFF)⟩)

end Sys2Proof.Machine
end

