-- ==== Sys2Proof/Machine/IncDec.lean ====
section
/-! DEFINITION. Increments and decrements (spec/43_inc_dec.md R140 to R146). The pair forms write no flag (R146). -/

namespace Sys2Proof.Machine

/-- An ALU function of one byte applied to a register: the result to the register, the four flags to F
(the pseudocode that R142 to R145, R150 and R151 share). -/
def aluReg (op : Byte → Flags → Byte × Flags) (r : Reg8) (s : State) : State :=
  let (v, fl) := op (get8 r s) (getFlags s)
  setFlags fl (set8 r v s)

/-- R140: `BC <- trunc16(BC + 1)`. -/
def execIncBc (s : State) : Host.Outcome State Fault Refusal := .next (setPair .bc (getPair .bc s + 1) s)

/-- R141: `BC <- trunc16(BC - 1)`. -/
def execDecBc (s : State) : Host.Outcome State Fault Refusal := .next (setPair .bc (getPair .bc s - 1) s)

/-- R142: `inc8` on the register B. -/
def execIncB (s : State) : Host.Outcome State Fault Refusal := .next (aluReg inc8 .b s)

/-- R143: `dec8` on the register B. -/
def execDecB (s : State) : Host.Outcome State Fault Refusal := .next (aluReg dec8 .b s)

/-- R144: `inc8` on the register C. -/
def execIncC (s : State) : Host.Outcome State Fault Refusal := .next (aluReg inc8 .c s)

/-- R145: `dec8` on the register C. -/
def execDecC (s : State) : Host.Outcome State Fault Refusal := .next (aluReg dec8 .c s)

end Sys2Proof.Machine
end

