-- ==== Sys2Proof/Machine/LoadStore.lean ====
section
/-! DEFINITION. Loads and stores (spec/42_loads_stores.md R130 to R137). None writes a flag and none can raise an
exception (R137). PC is already past the whole instruction when they run (R104). -/

namespace Sys2Proof.Machine

/-- R130: `BC <- imm16`. -/
def execLdBcD16 (d16 : Word) (s : State) : Host.Outcome State Fault Refusal := .next (setPair .bc d16 s)

/-- R131: `MemWrite(BC, 1, A)`. -/
def execLdIBcA (s : State) : Host.Outcome State Fault Refusal := .next (storeByte .indirectBc (get8 .a s) s)

/-- R132: `B <- imm8`. -/
def execLdBD8 (d8 : Byte) (s : State) : Host.Outcome State Fault Refusal := .next (set8 .b d8 s)

/-- R133: `C <- imm8`. -/
def execLdCD8 (d8 : Byte) (s : State) : Host.Outcome State Fault Refusal := .next (set8 .c d8 s)

/-- R134: `MemWrite(imm16, 2, SP)`. -/
def execLdIA16Sp (a16 : Word) (s : State) : Host.Outcome State Fault Refusal :=
  .next (storeWord (.absolute a16) s.sp s)

/-- R135: `A <- MemRead(BC, 1)`. -/
def execLdAIBc (s : State) : Host.Outcome State Fault Refusal := .next (set8 .a (loadByte .indirectBc s) s)

end Sys2Proof.Machine
end

