-- ==== Sys2Proof/Machine/Nop.lean ====
section
/-! DEFINITION. NOP (spec/40_step.md R110). -/

namespace Sys2Proof.Machine

/-- R110: NOP does nothing; PC and TICKS are the step's (R100). -/
def execNop (s : State) : Host.Outcome State Fault Refusal := .next s

end Sys2Proof.Machine
end

