-- ==== Sys2Proof/Machine/RotateAdd.lean ====
section
/-! DEFINITION. Accumulator rotates and pair addition (spec/44_rotate_add.md R150 to R152). -/

namespace Sys2Proof.Machine

/-- R150: `rl8` on the accumulator. -/
def execRlca (s : State) : Host.Outcome State Fault Refusal := .next (aluReg rl8 .a s)

/-- R151: `rr8` on the accumulator, in the mode the spec takes (log 3). -/
def execRrca (s : State) : Host.Outcome State Fault Refusal := .next (aluReg (rr8 rotRightMode) .a s)

/-- R152: `HL <- HL + BC`; N, H and C written, Z not. -/
def execAddHlBc (s : State) : Host.Outcome State Fault Refusal :=
  let (v, fl) := add16 (getPair .hl s) (getPair .bc s) (getFlags s)
  .next (setFlagsNHC fl (setPair .hl v s))

end Sys2Proof.Machine
end

