-- ==== Sys2Proof/Machine/Step.lean ====
section
/-! DEFINITION. The engine's single step (spec/40_step.md R100). -/

namespace Sys2Proof.Machine

/-- R100 on an engine that has been initialised: fetch; raise UnmappedOpcode where the lookup fails, else run
the operation and then account its ticks. -/
def engineStep (s : State) : Host.Outcome State Fault Refusal :=
  match fetch s with
  | .unmapped op s1 => .next (raiseUnmappedOpcode op s1)
  | .mapped i t s2 => thenTicks t (exec i s2)

/-- R100; R193: no step exists from a state that has not been initialised (D14, log 9). A state whose fault mark is
set steps on by R100 and keeps the mark (R168, log 7). -/
def step (s : State) : Host.Outcome State Fault Refusal :=
  if s.initialized then engineStep s else .refused .notInitialized

/-- The instruction of an opcode-table row stored where the step fetches: at PC and the next two addresses, modulo
2^16 (R80). This stands for the front-end's placing of a program (R177, log 10). -/
def State.withFetchWord (s : State) (nbits w : Nat) : State :=
  { s with mem := writeBytes s.mem s.pc (tableBytes nbits w) }

end Sys2Proof.Machine
end

