-- ==== Sys2Proof/Machine/Bus.lean ====
section
/-! DEFINITION. The bus transactions that one step issues, in order (spec/20_memory.md R50, R54, R59, R68), as byte
accesses: the word write of opcode 0x08 is two byte writes, low byte first (R54). -/

namespace Sys2Proof.Machine

/-- R50: a byte transaction, with the byte that the bus answers or is given. -/
inductive BusOp where
  | read (addr : Word) (value : Byte)
  | write (addr : Word) (value : Byte)
  deriving DecidableEq, Repr

/-- `n` byte reads at ascending addresses (R68, D8). -/
def readOps (m : Memory) (a : Word) : Nat → List BusOp
  | 0 => []
  | n + 1 => .read a (readByte m a) :: readOps m (a + 1) n

/-- R68: the instruction-side reads of a step, the opcode and then the operand bytes. -/
def fetchReads (s : State) : List BusOp :=
  match lookup (readByte s.mem s.pc) with
  | none => readOps s.mem s.pc 1
  | some d => readOps s.mem s.pc d.length

/-- R59: the data access of an instruction, run in state `s`. -/
def dataAccess (i : Instr) (s : State) : List BusOp :=
  match i with
  | .nop => []
  | .ldBcD16 _ => []
  | .ldIBcA => [.write (effectiveAddress .indirectBc s) (get8 .a s)]
  | .incBc => []
  | .incB => []
  | .decB => []
  | .ldBD8 _ => []
  | .rlca => []
  | .ldIA16Sp a16 =>
    [.write (effectiveAddress (.absolute a16) s) (loByte s.sp), .write (effectiveAddress (.absolute a16) s + 1) (hiByte s.sp)]
  | .addHlBc => []
  | .ldAIBc => [.read (effectiveAddress .indirectBc s) (loadByte .indirectBc s)]
  | .decBc => []
  | .incC => []
  | .decC => []
  | .ldCD8 _ => []
  | .rrca => []

/-- R68: the transactions of one step, in order: the instruction-side reads, then the data access. -/
def transactions (s : State) : List BusOp :=
  match fetch s with
  | .unmapped _ _ => fetchReads s
  | .mapped i _ s2 => fetchReads s ++ dataAccess i s2

/-- R56: a plain memory answering a list of transactions: the memory after them, or none if some read was answered
with a byte that the memory did not hold at that moment. -/
def replay (m : Memory) : List BusOp → Option Memory
  | [] => some m
  | .read a v :: ops => if readByte m a = v then replay m ops else none
  | .write a v :: ops => replay (writeByte m a v) ops

end Sys2Proof.Machine
end

