-- ==== Sys2Proof/Machine/FrontEnd.lean ====
section
/-! DEFINITION. The host interface of the core (spec/60_exceptions.md R176, R177; spec/70_reset_and_hazards.md R190,
R193): what a front-end can do to it, and what it is handed back. -/

namespace Sys2Proof.Machine

/-- The system before `initialize()`: the front-end has placed a memory, and `initialized` is false (R37). No
register exists yet (R190: they are "created once at engine initialization"), so their fields mean nothing. -/
def beforeInit (m : Memory) : State := { State.reset with mem := m, initialized := false }

/-- R177 `initialize()`: put the state of R38 in place; memory is not the core's and stays as the front-end placed it
(log 10). R193: a second call is refused (D14, log 9). -/
def hostInit (s : State) : Host.Outcome State Fault Refusal :=
  if s.initialized then .refused .alreadyInitialized else .next { State.reset with mem := s.mem }

/-- R162: the error that `step()` raises in a state, if it raises one. -/
def raised (s : State) : Option Fault :=
  match fetch s with
  | .unmapped op s1 => some (unmappedFault op s1)
  | .mapped _ _ _ => none

/-- R177 `step()`: the state after it, and what the host gets back: none for success, or the error. -/
def frontStep (s : State) : Host.Outcome (State × Option Fault) Fault Refusal :=
  match step s with
  | .next t => .next (t, raised s)
  | .fault r => .fault r
  | .refused r => .refused r

/-- R176: what the front-end can read between steps. -/
structure Inspection where
  /-- R176. -/
  a : Byte
  /-- R176. -/
  b : Byte
  /-- R176. -/
  c : Byte
  /-- R176. -/
  d : Byte
  /-- R176. -/
  e : Byte
  /-- R176. -/
  h : Byte
  /-- R176. -/
  l : Byte
  /-- R176. -/
  f : Byte
  /-- R176. -/
  sp : Word
  /-- R176. -/
  pc : Word
  /-- R176. -/
  ticks : Ticks
  deriving DecidableEq, Repr

/-- R176: reading through the inspection port; it has no effect on the core. -/
def inspect (s : State) : Inspection :=
  ⟨s.a, s.b, s.c, s.d, s.e, s.h, s.l, s.f, s.sp, s.pc, s.ticks⟩

end Sys2Proof.Machine
end

