-- ==== Sys2Proof/Safety.lean ====
section
/-! DEFINITION. What claims about the machine are stated in: the invariant of a running machine, what an
instruction may leave unchanged, and the end of a run (spec/40_step.md R112). -/

namespace Sys2Proof.Machine

/-- R26: the low nibble of F is zero. -/
def FlagsNibbleZero (s : State) : Prop := lowNibble s.f = 0#4

/-- R160, R162: an error in the fault mark names an opcode byte that has no descriptor. -/
def MarkNamesUnmapped (s : State) : Prop :=
  ∀ op addr, s.faultMark = some (.unmappedOpcode op addr) → 16 ≤ op.toNat

/-- The invariant of a running machine: initialised (R37), F's low nibble zero (R26), memory in canonical form (log 5),
a fault mark that names an unmapped opcode (R162). -/
structure Inv (s : State) : Prop where
  /-- R37, R193. -/
  initialized : s.initialized = true
  /-- R26. -/
  nibble : FlagsNibbleZero s
  /-- Log 5. -/
  memory : Memory.wf s.mem = true
  /-- R162. -/
  mark : MarkNamesUnmapped s

/-- Every byte of memory reads as before. -/
def SameMemory (s t : State) : Prop := ∀ a : Word, readByte t.mem a = readByte s.mem a

/-- Every byte of memory outside the listed addresses reads as before. -/
def SameMemoryExcept (addrs : List Word) (s t : State) : Prop :=
  ∀ a : Word, a ∉ addrs → readByte t.mem a = readByte s.mem a

/-- Every 8-bit register outside the list is unchanged; F is one of the eight. -/
def SameRegsExcept (rs : List Reg8) (s t : State) : Prop := ∀ r : Reg8, r ∉ rs → get8 r t = get8 r s

/-- SP, PC, TICKS, `initialized` and the fault mark, which no operation writes (R28, R105, R111). -/
structure SameControl (s t : State) : Prop where
  /-- R28. -/
  sp : t.sp = s.sp
  /-- R105, R111: "no operation reads or writes PC or TICKS". -/
  pc : t.pc = s.pc
  /-- R105. -/
  ticks : t.ticks = s.ticks
  /-- R37. -/
  initialized : t.initialized = s.initialized
  /-- R163. -/
  faultMark : t.faultMark = s.faultMark

/-- The flags by name (R24). -/
def flagZ (s : State) : Bool := (getFlags s).z
/-- The flags by name (R24). -/
def flagN (s : State) : Bool := (getFlags s).n
/-- The flags by name (R24). -/
def flagH (s : State) : Bool := (getFlags s).h
/-- The flags by name (R24). -/
def flagC (s : State) : Bool := (getFlags s).c

/-- F's low nibble is as before (R26, R27: only the four flags are ever written). -/
def SameNibble (s t : State) : Prop := lowNibble t.f = lowNibble s.f

/-- An instruction's encoding, tick cost and data transactions, as each instruction's own rule lists them; its length is
the number of its bytes. -/
structure CodedAs (i : Instr) (bytes : List Byte) (ticks : Nat) : Prop where
  /-- The "Encoding" line. -/
  encoded : encode i = bytes
  /-- The bytes are read back as the instruction, whatever follows them. -/
  decodes : ∀ rest, decode (bytes ++ rest) = .ok (i, rest)
  /-- The "ticks" figure. -/
  ticks : i.ticks = ticks

/-- R198: the length and tick cost that the spec's timing table gives an opcode number. -/
def timingTable : Nat → Option (Nat × Nat)
  | 0x00 => some (1, 4)
  | 0x01 => some (3, 12)
  | 0x02 => some (1, 8)
  | 0x03 => some (1, 8)
  | 0x04 => some (1, 4)
  | 0x05 => some (1, 4)
  | 0x06 => some (2, 8)
  | 0x07 => some (1, 4)
  | 0x08 => some (3, 20)
  | 0x09 => some (1, 8)
  | 0x0A => some (1, 8)
  | 0x0B => some (1, 8)
  | 0x0C => some (1, 4)
  | 0x0D => some (1, 4)
  | 0x0E => some (2, 8)
  | 0x0F => some (1, 4)
  | _ => none

/-- R68: the total of bus transactions that the spec's table gives an opcode number, the word write counted as two. -/
def transactionTable : Nat → Nat
  | 0x01 => 3
  | 0x02 => 2
  | 0x06 => 2
  | 0x08 => 5
  | 0x0A => 2
  | 0x0E => 2
  | _ => 1

/-- R112: up to `k` steps, stopping where the fault mark is set: the first UnmappedOpcode ends the run. -/
def runToEnd : Nat → State → Host.Outcome State Fault Refusal
  | 0, s => .next s
  | k + 1, s =>
    if s.faultMark.isSome then .next s
    else match step s with
      | .next t => runToEnd k t
      | .fault r => .fault r
      | .refused r => .refused r

/-- One instruction's operation run `k` times. -/
def execTimes (i : Instr) : Nat → State → Host.Outcome State Fault Refusal
  | 0, s => .next s
  | k + 1, s =>
    match exec i s with
    | .next t => execTimes i k t
    | .fault r => .fault r
    | .refused r => .refused r

end Sys2Proof.Machine
end

