-- ==== Sys2Proof/Certificates/Slice0/Obligations.lean ====
section
/-! DEFINITION. The statements for the provers. Where a clause rests on a choice of the spec's own (its decisions D<n>)
or of the model's, the docstring names it; such a statement has basis 'derived'. -/

open Sys2Proof Sys2Proof.Machine

/-! ### Encoding -/

/-- R86, R55: words written out from the encodings decode to their instructions (opcode numbers: D3, D4, log 1). -/
def Obligations.DecodesWordsOfTheSpec : Prop :=
  decode [0x00#8] = .ok (.nop, []) ∧
  decode [0x01#8, 0x34#8, 0x12#8] = .ok (.ldBcD16 0x1234#16, []) ∧
  decode [0x06#8, 0x7F#8] = .ok (.ldBD8 0x7F#8, []) ∧
  decode [0x08#8, 0x00#8, 0xC0#8] = .ok (.ldIA16Sp 0xC000#16, []) ∧
  decode [0x05#8] = .ok (.decB, []) ∧
  decode [0x07#8] = .ok (.rlca, []) ∧
  decode [0x09#8] = .ok (.addHlBc, []) ∧
  decode [0xCB#8, 0x00#8] = .error (.unmappedOpcode 0xCB#8)

/-- R80 to R86, R89: decoding and encoding agree, both ways and for every instruction with every operand: bytes decode to
an instruction, with a rest, exactly when they are that instruction's own bytes followed by the rest (opcode numbers: D3,
D4, log 1). -/
def Obligations.DecodeAndEncodeAgree : Prop :=
  ∀ (bytes : List Byte) (i : Instr) (rest : List Byte),
    (i.wellFormed = true ∧ decode bytes = .ok (i, rest)) ↔ bytes = encode i ++ rest

/-- R80 to R83: bytes pass the well-formedness check exactly when the decoder reads them as one whole instruction (D3,
D4, log 1). -/
def Obligations.WellFormedBytesAreOneInstruction : Prop :=
  ∀ bytes : List Byte, wellFormedEncoding bytes = true ↔ ∃ i : Instr, decode bytes = .ok (i, [])

/-- R88, R90: an opcode byte is refused by name exactly when it is 0x10 to 0xFF, whatever follows it. -/
def Obligations.UnmappedBytesAreRejectedByName : Prop :=
  ∀ (op : Byte) (rest : List Byte), decode (op :: rest) = .error (.unmappedOpcode op) ↔ 16 ≤ op.toNat

/-- R198: the descriptor of every opcode byte has the length and tick cost of the timing table, and a byte that the
table does not list has none (the cost of 0x0F is D4, log 1). -/
def Obligations.DescriptorsHaveTheDeclaredLengthsAndTicks : Prop :=
  ∀ op : Byte, (lookup op).map (fun d => (d.length, d.ticks)) = timingTable op.toNat

/-! ### The step -/

/-- R100: a step on bytes that decode to an instruction runs that instruction's operation with PC past its bytes, then
adds its ticks. -/
def Obligations.StepRunsTheDecodedInstruction : Prop :=
  ∀ (s : State) (i : Instr) (rest : List Byte), s.initialized = true →
    decode (readBytes s.mem s.pc 3) = .ok (i, rest) →
    step s = thenTicks i.ticks (exec i (advancePc i.length s))

/-- R80, R177: after an opcode-table row is placed at PC, the next step runs the instruction that the decoder reads
from it, at every PC, the wrap included (log 10). -/
def Obligations.PlacedWordIsRunByTheNextStep : Prop :=
  ∀ (s : State) (nbits w : Nat) (i : Instr), s.initialized = true → decodeTableWord nbits w = some i →
    step (s.withFetchWord nbits w) = thenTicks i.ticks (exec i (advancePc i.length (s.withFetchWord nbits w)))

/-- R160 to R162: a step that fetches 0x10 to 0xFF consumes the opcode byte and changes nothing else but the fault mark,
which then names the byte and its address, and its one bus transaction is the opcode read (PC: the spec's D5, log 11; the mark:
D18, log 7). -/
def Obligations.UnmappedOpcodeStepConsumesOneByte : Prop :=
  ∀ s : State, s.initialized = true → 16 ≤ (readByte s.mem s.pc).toNat →
    ∃ t : State, step s = .next t ∧ t.pc = s.pc + 1 ∧ SameRegsExcept [] s t ∧ t.sp = s.sp ∧ t.ticks = s.ticks ∧
      t.mem = s.mem ∧ t.initialized = true ∧
      (s.faultMark = none → t.faultMark = some (.unmappedOpcode (readByte s.mem s.pc) s.pc)) ∧
      transactions s = [.read s.pc (readByte s.mem s.pc)]

/-- R163: the fault mark is never cleared by a later step (the model keeps the first error in it: log 7). -/
def Obligations.FaultMarkIsKeptByEveryStep : Prop :=
  ∀ (s t : State) (e : Fault), step s = .next t → s.faultMark = some e → t.faultMark = some e

/-- R160, R163, R164: a step sets a clear fault mark exactly when it fetches an opcode byte from 0x10 to 0xFF; no operation
of the sixteen raises anything (the mark is D18, log 7). -/
def Obligations.FaultMarkIsSetByUnmappedOpcodesAlone : Prop :=
  ∀ s t : State, step s = .next t → s.faultMark = none →
    (t.faultMark = none ↔ (readByte s.mem s.pc).toNat < 16)

/-- R193: a step before `initialize()` is refused (D14, log 9). -/
def Obligations.StepBeforeInitialisationIsRefused : Prop :=
  ∀ s : State, s.initialized = false → step s = .refused .notInitialized

/-- R164, R67, R112: on an initialised engine every step answers a state: there is no bus error, no misaligned access, no
arithmetic exception, no halt, whatever memory and the registers hold (plain memory: D6, log 5). -/
def Obligations.InitialisedStepAlwaysAnswersAState : Prop :=
  ∀ s : State, s.initialized = true → ∃ t : State, step s = .next t ∧ t.initialized = true

/-- R106: a step adds exactly the tick cost that the descriptor of the fetched opcode declares, whatever the operands, the
registers, the flags and memory hold. -/
def Obligations.StepAddsTheDeclaredTicks : Prop :=
  ∀ (s t : State) (d : Descriptor), step s = .next t → lookup (readByte s.mem s.pc) = some d →
    t.ticks = s.ticks + BitVec.ofNat 64 d.ticks

/-- R30, R104, R109: a step advances PC by exactly the length of the fetched opcode's instruction modulo 2^16, and by one
where it has no descriptor (D5, log 11). -/
def Obligations.StepAdvancesPcByTheLength : Prop :=
  ∀ s t : State, step s = .next t →
    t.pc = s.pc + BitVec.ofNat 16 (((timingTable (readByte s.mem s.pc).toNat).map (·.1)).getD 1)

/-- R32: TICKS never decreases over a step that does not wrap it (wrap: D15, log 6). -/
def Obligations.TicksNeverDecreaseShortOfTheWrap : Prop :=
  ∀ s t : State, step s = .next t → s.ticks.toNat + 20 < 2 ^ 64 →
    s.ticks.toNat ≤ t.ticks.toNat ∧ t.ticks.toNat ≤ s.ticks.toNat + 20

/-! ### Invariants and whole-machine rules -/

/-- R26, R37, R162 and the model's canonical memory (log 5): every step keeps the invariant of a running machine, from every
state that meets it. -/
def Obligations.EveryStepKeepsTheInvariant : Prop :=
  ∀ s t : State, Inv s → step s = .next t → Inv t

/-- R38, R26, R163: the state after `initialize()` meets the invariant, and its fault mark is clear (the values are D2,
log 4; the mark is D18, log 7). -/
def Obligations.ResetMeetsTheInvariant : Prop := Inv State.reset ∧ State.reset.faultMark = none

/-- R38, R191: the spec's reset values (all of them its D2, log 4; the empty memory is the model's, log 5). -/
def Obligations.ResetValuesAreZero : Prop :=
  (∀ r : Reg8, get8 r State.reset = 0x00#8) ∧ State.reset.sp = 0x0000#16 ∧ State.reset.pc = 0x0000#16 ∧
  State.reset.ticks = 0#64 ∧ State.reset.initialized = true ∧ State.reset.faultMark = none

/-- R23, R28: SP, D and E keep their values for ever, over every run of the machine. -/
def Obligations.SpAndDAndENeverChange : Prop :=
  ∀ (k : Nat) (s t : State), core.run k s = .next t → t.sp = s.sp ∧ t.d = s.d ∧ t.e = s.e

/-- R23: no instruction reads D or E: a step's effect on everything else is the same whatever they hold. -/
def Obligations.DAndEInfluenceNothing : Prop :=
  ∀ (s t : State) (x y : Byte), step s = .next t →
    step { s with d := x, e := y } = .next { t with d := x, e := y }

/-- R198, R163: no behaviour of any instruction depends on TICKS, nor on the fault mark (the model's own, D18, log 7). -/
def Obligations.TicksAndMarkInfluenceNothing : Prop :=
  ∀ (s t : State) (n : Ticks) (m : Option Fault), step s = .next t →
    ∃ m' : Option Fault, step { s with ticks := n, faultMark := m } =
      .next { t with ticks := n + (t.ticks - s.ticks), faultMark := m' }

/-- R162: in a run that begins unmarked and ends at an UnmappedOpcode, both parts of the error can be recomputed from
the final state: the address is PC - 1 (that PC has moved past the byte is D5, log 11) and the byte is the one memory
holds there (the end of a run is D18, log 7). -/
def Obligations.ErrorOfARunIsRecomputable : Prop :=
  ∀ (k : Nat) (s t : State) (op : Byte) (addr : Word), s.faultMark = none → runToEnd k s = .next t →
    t.faultMark = some (.unmappedOpcode op addr) → addr = t.pc - 1 ∧ op = readByte t.mem addr

/-- R112, R163: for a final state with a clear fault mark, the run of `k` steps that ends at the first UnmappedOpcode and
the machine's own run of `k` steps are the same run, from every state. From right to left this needs that no step of the
machine clears the mark: a machine's run that ends unmarked met no UnmappedOpcode on its way (D18, log 7). -/
def Obligations.UnmarkedRunIsTheMachinesRun : Prop :=
  ∀ (k : Nat) (s t : State), t.faultMark = none → (runToEnd k s = .next t ↔ core.run k s = .next t)

/-! ### Memory and the bus -/

/-- R53 to R55, R57: a word written at any address, odd or even, reads back as it was, its low byte at the address and its
high byte at the next one modulo 2^16 (wrap at 0xFFFF: D7). -/
def Obligations.WordsAreLittleEndianAtEveryAddress : Prop :=
  ∀ (m : Memory) (a v : Word), readWord (writeWord m a v) a = v ∧
    readByte (writeWord m a v) a = loByte v ∧ readByte (writeWord m a v) (a + 1) = hiByte v ∧
    ∀ b : Word, b ≠ a → b ≠ a + 1 → readByte (writeWord m a v) b = readByte m b

/-- R56: a memory is what it answers: two memories in canonical form that answer every byte read alike are equal data
(the canonical form is the model's, log 5). -/
def Obligations.MemoriesThatReadAlikeAreEqual : Prop :=
  ∀ m m' : Memory, Memory.wf m = true → Memory.wf m' = true →
    (∀ a : Word, readByte m a = readByte m' a) → m = m'

/-- R56, R60, R68: the bus transactions listed for a step, answered in order by a plain memory, are all answered as the
step saw them, and leave the memory that the step leaves (D6, D7, D8: logs 5, 12, 13). -/
def Obligations.StepIsTheReplayOfItsTransactions : Prop :=
  ∀ s t : State, step s = .next t → replay s.mem (transactions s) = some t.mem

/-- R68: how many transactions a step issues, for every opcode byte, and that the first is the opcode read (opcode numbers:
D3, D4, log 1; operand bytes as separate byte reads: D8, log 13; a word write as two byte writes: D7, log 12). -/
def Obligations.StepIssuesTheTabulatedTransactions : Prop :=
  ∀ s : State, (transactions s).length = transactionTable (readByte s.mem s.pc).toNat ∧
    (transactions s).head? = some (.read s.pc (readByte s.mem s.pc))

/-- R63, R197: LD (BC),A onto the next instruction's opcode byte is seen by the next fetch: that step raises UnmappedOpcode
with the stored byte, or runs the stored byte's instruction and adds its ticks (opcode 0x02: D3, log 1). -/
def Obligations.StoredOpcodeIsSeenByTheNextFetch : Prop :=
  ∀ s t : State, step s = .next t → readByte s.mem s.pc = 0x02#8 → cat s.b s.c = s.pc + 1 →
    readByte t.mem t.pc = s.a ∧
    (16 ≤ s.a.toNat → raised t = some (.unmappedOpcode s.a t.pc)) ∧
    (∀ d : Descriptor, lookup s.a = some d → raised t = none ∧
      ∃ u : State, step t = .next u ∧ u.ticks = t.ticks + BitVec.ofNat 64 d.ticks)

/-! ### Registers and ALU functions -/

/-- R25: a pair reads as it was written, F's low nibble staying zero; no other register changes, nor anything else of the
state (DE, AF and the mask: D11, log 8). -/
def Obligations.PairsAreViewsOfTheirTwoRegisters : Prop :=
  ∀ (p : Pair) (v : Word) (s : State),
    getPair p (setPair p v s) = (if p = .af then v &&& 0xFFF0#16 else v) ∧
    SameRegsExcept [p.high, p.low] s (setPair p v s) ∧ SameControl s (setPair p v s) ∧
    (setPair p v s).mem = s.mem

/-- R120: the increment rule, for every byte and every flags value. -/
def Obligations.IncrementRule : Prop :=
  ∀ (v : Byte) (fl : Flags),
    (inc8 v fl).1.toNat = (v.toNat + 1) % 256 ∧
    ((inc8 v fl).2.z = true ↔ (inc8 v fl).1.toNat = 0) ∧
    (inc8 v fl).2.n = false ∧
    ((inc8 v fl).2.h = true ↔ v.toNat % 16 = 15) ∧
    (inc8 v fl).2.c = fl.c

/-- R121: the decrement rule, for every byte and every flags value. -/
def Obligations.DecrementRule : Prop :=
  ∀ (v : Byte) (fl : Flags),
    (dec8 v fl).1.toNat = (v.toNat + 255) % 256 ∧
    ((dec8 v fl).2.z = true ↔ (dec8 v fl).1.toNat = 0) ∧
    (dec8 v fl).2.n = true ∧
    ((dec8 v fl).2.h = true ↔ v.toNat % 16 = 0) ∧
    (dec8 v fl).2.c = fl.c

/-- R122: rotate left through carry, for every byte and every flags value. -/
def Obligations.RotateLeftRule : Prop :=
  ∀ (v : Byte) (fl : Flags),
    (rl8 v fl).1.toNat = (2 * v.toNat + fl.c.toNat) % 256 ∧
    (rl8 v fl).2.z = false ∧ (rl8 v fl).2.n = false ∧ (rl8 v fl).2.h = false ∧
    ((rl8 v fl).2.c = true ↔ 128 ≤ v.toNat)

/-- R123: rotate right in both modes, for every byte and every flags value: the modes differ in what enters bit 7 and in
nothing else (the whole rule is the spec's D4, log 3). -/
def Obligations.RotateRightRuleInBothModes : Prop :=
  ∀ (v : Byte) (fl : Flags),
    (rr8 .throughCarry v fl).1.toNat = 128 * fl.c.toNat + v.toNat / 2 ∧
    (rr8 .circular v fl).1.toNat = 128 * (v.toNat % 2) + v.toNat / 2 ∧
    ∀ mode : RotRightMode,
      (rr8 mode v fl).2.z = false ∧ (rr8 mode v fl).2.n = false ∧ (rr8 mode v fl).2.h = false ∧
      ((rr8 mode v fl).2.c = true ↔ v.toNat % 2 = 1)

/-- R124: word addition, for all words and every flags value. -/
def Obligations.WordAdditionRule : Prop :=
  ∀ (a b : Word) (fl : Flags),
    (add16 a b fl).1.toNat = (a.toNat + b.toNat) % 65536 ∧
    (add16 a b fl).2.z = fl.z ∧ (add16 a b fl).2.n = false ∧
    ((add16 a b fl).2.h = true ↔ (a &&& 0x0FFF#16).toNat + (b &&& 0x0FFF#16).toNat > 0x0FFF) ∧
    ((add16 a b fl).2.c = true ↔ a.toNat + b.toNat > 0xFFFF)

/-- R125, R127: each ALU function reads of the flags only those it keeps or uses: C for `inc8`, `dec8` and `rl8`, Z for
`add16`, C for `rr8` in mode through_carry and none in mode circular (`rr8`: D4, log 3). -/
def Obligations.AluFunctionsReadOnlyTheFlagsTheyUse : Prop :=
  (∀ (v : Byte) (fl fl' : Flags), fl.c = fl'.c → inc8 v fl = inc8 v fl' ∧ dec8 v fl = dec8 v fl' ∧ rl8 v fl = rl8 v fl' ∧
    rr8 .throughCarry v fl = rr8 .throughCarry v fl') ∧
  (∀ (v : Byte) (fl fl' : Flags), rr8 .circular v fl = rr8 .circular v fl') ∧
  (∀ (a b : Word) (fl fl' : Flags), fl.z = fl'.z → add16 a b fl = add16 a b fl')

/-! ### Instructions: that they complete, their results, and what they leave unchanged -/

/-- R110: NOP, its encoding and ticks, its operation, and the whole of a step on its byte, at every PC. -/
def Obligations.NopChangesPcAndTicksAlone : Prop :=
  CodedAs .nop [0x00#8] 4 ∧ (∀ s : State, exec .nop s = .next s) ∧
  ∀ s : State, s.initialized = true → readByte s.mem s.pc = 0x00#8 →
    step s = .next { s with pc := s.pc + 1, ticks := s.ticks + 4 } ∧ transactions s = [.read s.pc 0x00#8]

/-- R130: LD BC,d16 completes in every state; BC reads as d16, and nothing else changes (that F does not is D10). -/
def Obligations.LdBcD16LoadsThePair : Prop :=
  ∀ (d16 : Word) (s : State), CodedAs (.ldBcD16 d16) [0x01#8, loByte d16, hiByte d16] 12 ∧
    ∃ t : State, exec (.ldBcD16 d16) s = .next t ∧ getPair .bc t = d16 ∧ t.b = hiByte d16 ∧ t.c = loByte d16 ∧
      SameRegsExcept [.b, .c] s t ∧ SameControl s t ∧ SameMemory s t

/-- R132, R133: LD B,d8 and LD C,d8 complete in every state; the register holds d8, and nothing else changes (register and
opcode: D3, log 1; that F does not change is D10). -/
def Obligations.LdBD8AndLdCD8LoadTheRegister : Prop :=
  ∀ (d8 : Byte) (s : State), CodedAs (.ldBD8 d8) [0x06#8, d8] 8 ∧ CodedAs (.ldCD8 d8) [0x0E#8, d8] 8 ∧
    (∃ t : State, exec (.ldBD8 d8) s = .next t ∧ t.b = d8 ∧
      SameRegsExcept [.b] s t ∧ SameControl s t ∧ SameMemory s t) ∧
    (∃ t : State, exec (.ldCD8 d8) s = .next t ∧ t.c = d8 ∧
      SameRegsExcept [.c] s t ∧ SameControl s t ∧ SameMemory s t)

/-- R131: LD (BC),A completes in every state; the byte at the address in BC reads as A, every other byte of memory and every
register are unchanged (registers and opcode: D3, log 1; F: D10; plain memory: D6). -/
def Obligations.LdIBcAStoresTheAccumulator : Prop :=
  ∀ s : State, CodedAs .ldIBcA [0x02#8] 8 ∧ effectiveAddress .indirectBc s = cat s.b s.c ∧
    ∃ t : State, exec .ldIBcA s = .next t ∧ readByte t.mem (effectiveAddress .indirectBc s) = s.a ∧
      SameMemoryExcept [effectiveAddress .indirectBc s] s t ∧ SameRegsExcept [] s t ∧ SameControl s t

/-- R134: LD (a16),SP completes in every state; SP stands little-endian at a16 and the next address modulo 2^16, every other
byte of memory and every register are unchanged (opcode: D3, log 1; wrap: D7; F: D10; plain memory: D6). -/
def Obligations.LdIA16SpStoresTheStackPointer : Prop :=
  ∀ (a16 : Word) (s : State), CodedAs (.ldIA16Sp a16) [0x08#8, loByte a16, hiByte a16] 20 ∧
    effectiveAddress (.absolute a16) s = a16 ∧
    ∃ t : State, exec (.ldIA16Sp a16) s = .next t ∧
      readByte t.mem (effectiveAddress (.absolute a16) s) = loByte s.sp ∧
      readByte t.mem (effectiveAddress (.absolute a16) s + 1) = hiByte s.sp ∧
      SameMemoryExcept [effectiveAddress (.absolute a16) s, effectiveAddress (.absolute a16) s + 1] s t ∧
      SameRegsExcept [] s t ∧ SameControl s t

/-- R135: LD A,(BC) completes in every state; A holds the byte at the address in BC, and nothing else changes (registers and
opcode: D3, log 1; F: D10). -/
def Obligations.LdAIBcLoadsTheAccumulator : Prop :=
  ∀ s : State, CodedAs .ldAIBc [0x0A#8] 8 ∧
    ∃ t : State, exec .ldAIBc s = .next t ∧ t.a = readByte s.mem (cat s.b s.c) ∧
      SameRegsExcept [.a] s t ∧ SameControl s t ∧ SameMemory s t

/-- R140, R141, R146: INC BC and DEC BC complete in every state; the pair moves by one modulo 2^16, and nothing else
changes, F least of all (pair and opcodes: D3, log 1; F: D10). -/
def Obligations.IncBcAndDecBcMoveThePairByOne : Prop :=
  ∀ s : State, CodedAs .incBc [0x03#8] 8 ∧ CodedAs .decBc [0x0B#8] 8 ∧
    (∃ t : State, exec .incBc s = .next t ∧ (getPair .bc t).toNat = ((getPair .bc s).toNat + 1) % 65536 ∧
      SameRegsExcept [.b, .c] s t ∧ SameControl s t ∧ SameMemory s t) ∧
    (∃ t : State, exec .decBc s = .next t ∧ (getPair .bc t).toNat = ((getPair .bc s).toNat + 65535) % 65536 ∧
      SameRegsExcept [.b, .c] s t ∧ SameControl s t ∧ SameMemory s t)

/-- R142, R144: INC B and INC C complete in every state: the register plus one modulo 2^8, Z, N and H by the increment rule,
the carry flag and F's low nibble kept, nothing else changed (registers and opcodes: D3, log 1). -/
def Obligations.IncBAndIncCIncrementTheRegister : Prop :=
  ∀ s : State, CodedAs .incB [0x04#8] 4 ∧ CodedAs .incC [0x0C#8] 4 ∧
    (∃ t : State, exec .incB s = .next t ∧ t.b.toNat = (s.b.toNat + 1) % 256 ∧
      (flagZ t = true ↔ t.b = 0x00#8) ∧ flagN t = false ∧ (flagH t = true ↔ s.b.toNat % 16 = 15) ∧ flagC t = flagC s ∧
      SameNibble s t ∧ SameRegsExcept [.b, .f] s t ∧ SameControl s t ∧ SameMemory s t) ∧
    (∃ t : State, exec .incC s = .next t ∧ t.c.toNat = (s.c.toNat + 1) % 256 ∧
      (flagZ t = true ↔ t.c = 0x00#8) ∧ flagN t = false ∧ (flagH t = true ↔ s.c.toNat % 16 = 15) ∧ flagC t = flagC s ∧
      SameNibble s t ∧ SameRegsExcept [.c, .f] s t ∧ SameControl s t ∧ SameMemory s t)

/-- R143, R145: DEC B and DEC C complete in every state: the register minus one modulo 2^8, Z, N and H by the decrement rule,
the carry flag and F's low nibble kept, nothing else changed (registers and opcodes: D3, log 1). -/
def Obligations.DecBAndDecCDecrementTheRegister : Prop :=
  ∀ s : State, CodedAs .decB [0x05#8] 4 ∧ CodedAs .decC [0x0D#8] 4 ∧
    (∃ t : State, exec .decB s = .next t ∧ t.b.toNat = (s.b.toNat + 255) % 256 ∧
      (flagZ t = true ↔ t.b = 0x00#8) ∧ flagN t = true ∧ (flagH t = true ↔ s.b.toNat % 16 = 0) ∧ flagC t = flagC s ∧
      SameNibble s t ∧ SameRegsExcept [.b, .f] s t ∧ SameControl s t ∧ SameMemory s t) ∧
    (∃ t : State, exec .decC s = .next t ∧ t.c.toNat = (s.c.toNat + 255) % 256 ∧
      (flagZ t = true ↔ t.c = 0x00#8) ∧ flagN t = true ∧ (flagH t = true ↔ s.c.toNat % 16 = 0) ∧ flagC t = flagC s ∧
      SameNibble s t ∧ SameRegsExcept [.c, .f] s t ∧ SameControl s t ∧ SameMemory s t)

/-- R150: RLCA, its encoding, ticks and single bus transaction; it completes in every state: A and the carry flag rotate left
as nine bits, Z, N and H are cleared, F's low nibble and everything else are kept. -/
def Obligations.RlcaRotatesLeftThroughCarry : Prop :=
  CodedAs .rlca [0x07#8] 4 ∧
  (∀ s : State, readByte s.mem s.pc = 0x07#8 → transactions s = [.read s.pc 0x07#8]) ∧
  ∀ s : State, ∃ t : State, exec .rlca s = .next t ∧ t.a.toNat = (2 * s.a.toNat + (flagC s).toNat) % 256 ∧
    (flagC t = true ↔ 128 ≤ s.a.toNat) ∧ flagZ t = false ∧ flagN t = false ∧ flagH t = false ∧
    SameNibble s t ∧ SameRegsExcept [.a, .f] s t ∧ SameControl s t ∧ SameMemory s t

/-- R150: nine successive RLCA restore A and the carry flag. -/
def Obligations.NineRlcaRestoreTheAccumulator : Prop :=
  ∀ s : State, ∃ t : State, execTimes .rlca 9 s = .next t ∧ t.a = s.a ∧ flagC t = flagC s ∧
    SameRegsExcept [.f] s t ∧ SameNibble s t ∧ SameControl s t ∧ SameMemory s t

/-- R151: RRCA completes in every state. Bits 6:0 of A, the flags and the frame are those of both modes of the rotate; the
clause on bit 7 is the mode the spec takes, through_carry (the whole operation is the spec's D4, logs 1 and 3). -/
def Obligations.RrcaRotatesRight : Prop :=
  ∀ s : State, CodedAs .rrca [0x0F#8] 4 ∧
    ∃ t : State, exec .rrca s = .next t ∧ t.a.toNat % 128 = s.a.toNat / 2 ∧ (128 ≤ t.a.toNat ↔ flagC s = true) ∧
      (flagC t = true ↔ s.a.toNat % 2 = 1) ∧ flagZ t = false ∧ flagN t = false ∧ flagH t = false ∧
      SameNibble s t ∧ SameRegsExcept [.a, .f] s t ∧ SameControl s t ∧ SameMemory s t

/-- R152: ADD HL,BC, its encoding, ticks and single bus transaction; it completes in every state: HL is the sum modulo 2^16,
N is cleared, H and C are the carries out of bits 11 and 15, Z and F's low nibble and everything else are kept. -/
def Obligations.AddHlBcAddsThePairs : Prop :=
  CodedAs .addHlBc [0x09#8] 8 ∧
  (∀ s : State, readByte s.mem s.pc = 0x09#8 → transactions s = [.read s.pc 0x09#8]) ∧
  ∀ s : State, ∃ t : State, exec .addHlBc s = .next t ∧
    (getPair .hl t).toNat = ((getPair .hl s).toNat + (getPair .bc s).toNat) % 65536 ∧
    flagZ t = flagZ s ∧ flagN t = false ∧
    (flagH t = true ↔ (getPair .hl s).toNat % 4096 + (getPair .bc s).toNat % 4096 > 0x0FFF) ∧
    (flagC t = true ↔ (getPair .hl s).toNat + (getPair .bc s).toNat > 0xFFFF) ∧
    SameNibble s t ∧ SameRegsExcept [.h, .l, .f] s t ∧ SameControl s t ∧ SameMemory s t

/-! ### The host interface -/

/-- R177, R190, R193: `initialize()` on a system not yet initialised puts the reset state in place over the memory that the
front-end placed, and a second call is refused (D2, D14, logs 4, 9 and 10). -/
def Obligations.InitialisationHappensOnce : Prop :=
  (∀ s : State, s.initialized = false → hostInit s = .next { State.reset with mem := s.mem }) ∧
  (∀ s t : State, hostInit s = .next t → hostInit t = .refused .alreadyInitialized)

/-- R177, R162: what `step()` hands back: success when the fetched opcode has a descriptor, else UnmappedOpcode with the byte
and the address it was fetched from, together with the state after the step. -/
def Obligations.StepHandsBackSuccessOrTheError : Prop :=
  ∀ s t : State, step s = .next t →
    frontStep s = .next (t, if (readByte s.mem s.pc).toNat < 16 then none
      else some (.unmappedOpcode (readByte s.mem s.pc) s.pc))
end

