-- ==== Sys2Proof/Laws/Bits.lean ====
section
/-! SUPPORT. Laws of byte composition and single-bit access. -/

namespace Sys2Proof.Laws

/-- The bits of a composed word: the low byte's, then the high byte's. -/
theorem getLsbD_cat (h l : Byte) (i : Nat) :
    (cat h l).getLsbD i = if i < 8 then l.getLsbD i else h.getLsbD (i - 8) := by
  have := BitVec.getLsbD_append (x := h) (y := l) (i := i)
  rw [cat, this]

@[simp] theorem hiByte_cat (h l : Byte) : hiByte (cat h l) = h := by
  apply BitVec.eq_of_getLsbD_eq
  intro i hi
  simp [hiByte, getLsbD_cat, hi]

@[simp] theorem loByte_cat (h l : Byte) : loByte (cat h l) = l := by
  apply BitVec.eq_of_getLsbD_eq
  intro i hi
  simp [loByte, getLsbD_cat, hi]

@[simp] theorem cat_hiByte_loByte (v : Word) : cat (hiByte v) (loByte v) = v := by
  apply BitVec.eq_of_getLsbD_eq
  intro i hi
  by_cases h8 : i < 8
  · simp [hiByte, loByte, getLsbD_cat, h8]
  · have h8' : i - 8 < 8 := by omega
    have hs : 8 + (i - 8) = i := by omega
    simp [hiByte, loByte, getLsbD_cat, h8, h8', hs]

@[simp] theorem loByte_zext16 (b : Byte) : loByte (zext16 b) = b := loByte_cat _ _

/-- The word that two bytes compose, as a number. -/
theorem cat_toNat (h l : Byte) : (cat h l).toNat = h.toNat * 256 + l.toNat := by
  have hl := l.isLt
  rw [cat, BitVec.toNat_append, Nat.shiftLeft_eq, Nat.mul_comm]
  rw [← Nat.two_pow_add_eq_or_of_lt hl]

theorem getBit_setBit_self (v : Byte) (i : Nat) (hi : i < 8) (b : Bool) : getBit (setBit v i b) i = b := by
  cases b <;> simp [getBit, setBit, hi]

theorem getBit_setBit_ne (v : Byte) (i j : Nat) (hj : j < 8) (hij : i ≠ j) (b : Bool) :
    getBit (setBit v i b) j = getBit v j := by
  by_cases h : j < i
  · cases b <;> simp [getBit, setBit, hj, h]
  · have : j - i ≠ 0 := by omega
    cases b <;> simp [getBit, setBit, hj, h, this]

/-- A bit of the high nibble is written without touching the low nibble. -/
theorem lowNibble_setBit (v : Byte) (i : Nat) (hi : 4 ≤ i) (b : Bool) :
    lowNibble (setBit v i b) = lowNibble v := by
  apply BitVec.eq_of_getLsbD_eq
  intro j hj
  have h : j < i := by omega
  have hj8 : j < 8 := by omega
  cases b <;> simp [lowNibble, setBit, hj, h, hj8]

end Sys2Proof.Laws
end

