-- ==== Sys2Proof/Laws/Decode.lean ====
section
/-! SUPPORT. Laws of the descriptor table and of the immediate. -/

namespace Sys2Proof.Laws

/-- R2, R88: exactly the opcodes 0x00 to 0x0F have a descriptor. -/
theorem lookup_isSome_iff (op : Byte) : (lookup op).isSome = decide (op.toNat < 16) := by
  revert op
  decide

theorem lookup_eq_none_iff (op : Byte) : lookup op = none ↔ 16 ≤ op.toNat := by
  have h := lookup_isSome_iff op
  cases hl : lookup op <;> simp [hl] at h ⊢ <;> omega

/-- Sixteen opcodes and no other: what a byte with a descriptor can be. -/
theorem opcode_cases {op : Byte} (h : op.toNat < 16) :
    op = 0x00#8 ∨ op = 0x01#8 ∨ op = 0x02#8 ∨ op = 0x03#8 ∨ op = 0x04#8 ∨ op = 0x05#8 ∨ op = 0x06#8 ∨ op = 0x07#8 ∨
    op = 0x08#8 ∨ op = 0x09#8 ∨ op = 0x0A#8 ∨ op = 0x0B#8 ∨ op = 0x0C#8 ∨ op = 0x0D#8 ∨ op = 0x0E#8 ∨ op = 0x0F#8 := by
  revert h op
  decide

/-- R81 to R83 against R86: the format lists and the descriptor table agree. -/
theorem lookup_format (op : Byte) : (lookup op).map (·.format) = formatOf op := by
  revert op
  decide

@[simp] theorem immediate_nil : immediate [] = 0x0000#16 := rfl
@[simp] theorem immediate_one (b : Byte) : immediate [b] = zext16 b := rfl
@[simp] theorem immediate_two (b1 b2 : Byte) : immediate [b1, b2] = cat b2 b1 := rfl

end Sys2Proof.Laws
end

