-- ==== Sys2Proof/Laws/State.lean ====
section
/-! SUPPORT. One lemma per field and per update of the state, true by `rfl`, so that no later proof unfolds a record
update. Where an operation can change a field, the lemma says its new value. -/

namespace Sys2Proof.Laws

open Sys2Proof.Machine

@[simp] theorem advancePc_a (n : Nat) (s : State) : (advancePc n s).a = s.a := rfl
@[simp] theorem advancePc_b (n : Nat) (s : State) : (advancePc n s).b = s.b := rfl
@[simp] theorem advancePc_c (n : Nat) (s : State) : (advancePc n s).c = s.c := rfl
@[simp] theorem advancePc_d (n : Nat) (s : State) : (advancePc n s).d = s.d := rfl
@[simp] theorem advancePc_e (n : Nat) (s : State) : (advancePc n s).e = s.e := rfl
@[simp] theorem advancePc_h (n : Nat) (s : State) : (advancePc n s).h = s.h := rfl
@[simp] theorem advancePc_l (n : Nat) (s : State) : (advancePc n s).l = s.l := rfl
@[simp] theorem advancePc_f (n : Nat) (s : State) : (advancePc n s).f = s.f := rfl
@[simp] theorem advancePc_sp (n : Nat) (s : State) : (advancePc n s).sp = s.sp := rfl
@[simp] theorem advancePc_pc (n : Nat) (s : State) : (advancePc n s).pc = s.pc + BitVec.ofNat 16 n := rfl
@[simp] theorem advancePc_ticks (n : Nat) (s : State) : (advancePc n s).ticks = s.ticks := rfl
@[simp] theorem advancePc_mem (n : Nat) (s : State) : (advancePc n s).mem = s.mem := rfl
@[simp] theorem advancePc_initialized (n : Nat) (s : State) : (advancePc n s).initialized = s.initialized := rfl
@[simp] theorem advancePc_faultMark (n : Nat) (s : State) : (advancePc n s).faultMark = s.faultMark := rfl

@[simp] theorem addTicks_a (t : Nat) (s : State) : (addTicks t s).a = s.a := rfl
@[simp] theorem addTicks_b (t : Nat) (s : State) : (addTicks t s).b = s.b := rfl
@[simp] theorem addTicks_c (t : Nat) (s : State) : (addTicks t s).c = s.c := rfl
@[simp] theorem addTicks_d (t : Nat) (s : State) : (addTicks t s).d = s.d := rfl
@[simp] theorem addTicks_e (t : Nat) (s : State) : (addTicks t s).e = s.e := rfl
@[simp] theorem addTicks_h (t : Nat) (s : State) : (addTicks t s).h = s.h := rfl
@[simp] theorem addTicks_l (t : Nat) (s : State) : (addTicks t s).l = s.l := rfl
@[simp] theorem addTicks_f (t : Nat) (s : State) : (addTicks t s).f = s.f := rfl
@[simp] theorem addTicks_sp (t : Nat) (s : State) : (addTicks t s).sp = s.sp := rfl
@[simp] theorem addTicks_pc (t : Nat) (s : State) : (addTicks t s).pc = s.pc := rfl
@[simp] theorem addTicks_ticks (t : Nat) (s : State) : (addTicks t s).ticks = s.ticks + BitVec.ofNat 64 t := rfl
@[simp] theorem addTicks_mem (t : Nat) (s : State) : (addTicks t s).mem = s.mem := rfl
@[simp] theorem addTicks_initialized (t : Nat) (s : State) : (addTicks t s).initialized = s.initialized := rfl
@[simp] theorem addTicks_faultMark (t : Nat) (s : State) : (addTicks t s).faultMark = s.faultMark := rfl

@[simp] theorem raiseUnmappedOpcode_a (op : Byte) (s : State) : (raiseUnmappedOpcode op s).a = s.a := rfl
@[simp] theorem raiseUnmappedOpcode_b (op : Byte) (s : State) : (raiseUnmappedOpcode op s).b = s.b := rfl
@[simp] theorem raiseUnmappedOpcode_c (op : Byte) (s : State) : (raiseUnmappedOpcode op s).c = s.c := rfl
@[simp] theorem raiseUnmappedOpcode_d (op : Byte) (s : State) : (raiseUnmappedOpcode op s).d = s.d := rfl
@[simp] theorem raiseUnmappedOpcode_e (op : Byte) (s : State) : (raiseUnmappedOpcode op s).e = s.e := rfl
@[simp] theorem raiseUnmappedOpcode_h (op : Byte) (s : State) : (raiseUnmappedOpcode op s).h = s.h := rfl
@[simp] theorem raiseUnmappedOpcode_l (op : Byte) (s : State) : (raiseUnmappedOpcode op s).l = s.l := rfl
@[simp] theorem raiseUnmappedOpcode_f (op : Byte) (s : State) : (raiseUnmappedOpcode op s).f = s.f := rfl
@[simp] theorem raiseUnmappedOpcode_sp (op : Byte) (s : State) : (raiseUnmappedOpcode op s).sp = s.sp := rfl
@[simp] theorem raiseUnmappedOpcode_pc (op : Byte) (s : State) : (raiseUnmappedOpcode op s).pc = s.pc := rfl
@[simp] theorem raiseUnmappedOpcode_ticks (op : Byte) (s : State) : (raiseUnmappedOpcode op s).ticks = s.ticks := rfl
@[simp] theorem raiseUnmappedOpcode_mem (op : Byte) (s : State) : (raiseUnmappedOpcode op s).mem = s.mem := rfl
@[simp] theorem raiseUnmappedOpcode_initialized (op : Byte) (s : State) : (raiseUnmappedOpcode op s).initialized = s.initialized := rfl
@[simp] theorem raiseUnmappedOpcode_faultMark (op : Byte) (s : State) : (raiseUnmappedOpcode op s).faultMark = s.faultMark.or (some (unmappedFault op s)) := rfl

@[simp] theorem storeByte_a (m : AddrMode) (v : Byte) (s : State) : (storeByte m v s).a = s.a := rfl
@[simp] theorem storeByte_b (m : AddrMode) (v : Byte) (s : State) : (storeByte m v s).b = s.b := rfl
@[simp] theorem storeByte_c (m : AddrMode) (v : Byte) (s : State) : (storeByte m v s).c = s.c := rfl
@[simp] theorem storeByte_d (m : AddrMode) (v : Byte) (s : State) : (storeByte m v s).d = s.d := rfl
@[simp] theorem storeByte_e (m : AddrMode) (v : Byte) (s : State) : (storeByte m v s).e = s.e := rfl
@[simp] theorem storeByte_h (m : AddrMode) (v : Byte) (s : State) : (storeByte m v s).h = s.h := rfl
@[simp] theorem storeByte_l (m : AddrMode) (v : Byte) (s : State) : (storeByte m v s).l = s.l := rfl
@[simp] theorem storeByte_f (m : AddrMode) (v : Byte) (s : State) : (storeByte m v s).f = s.f := rfl
@[simp] theorem storeByte_sp (m : AddrMode) (v : Byte) (s : State) : (storeByte m v s).sp = s.sp := rfl
@[simp] theorem storeByte_pc (m : AddrMode) (v : Byte) (s : State) : (storeByte m v s).pc = s.pc := rfl
@[simp] theorem storeByte_ticks (m : AddrMode) (v : Byte) (s : State) : (storeByte m v s).ticks = s.ticks := rfl
@[simp] theorem storeByte_mem (m : AddrMode) (v : Byte) (s : State) : (storeByte m v s).mem = writeByte s.mem (effectiveAddress m s) v := rfl
@[simp] theorem storeByte_initialized (m : AddrMode) (v : Byte) (s : State) : (storeByte m v s).initialized = s.initialized := rfl
@[simp] theorem storeByte_faultMark (m : AddrMode) (v : Byte) (s : State) : (storeByte m v s).faultMark = s.faultMark := rfl

@[simp] theorem storeWord_a (m : AddrMode) (v : Word) (s : State) : (storeWord m v s).a = s.a := rfl
@[simp] theorem storeWord_b (m : AddrMode) (v : Word) (s : State) : (storeWord m v s).b = s.b := rfl
@[simp] theorem storeWord_c (m : AddrMode) (v : Word) (s : State) : (storeWord m v s).c = s.c := rfl
@[simp] theorem storeWord_d (m : AddrMode) (v : Word) (s : State) : (storeWord m v s).d = s.d := rfl
@[simp] theorem storeWord_e (m : AddrMode) (v : Word) (s : State) : (storeWord m v s).e = s.e := rfl
@[simp] theorem storeWord_h (m : AddrMode) (v : Word) (s : State) : (storeWord m v s).h = s.h := rfl
@[simp] theorem storeWord_l (m : AddrMode) (v : Word) (s : State) : (storeWord m v s).l = s.l := rfl
@[simp] theorem storeWord_f (m : AddrMode) (v : Word) (s : State) : (storeWord m v s).f = s.f := rfl
@[simp] theorem storeWord_sp (m : AddrMode) (v : Word) (s : State) : (storeWord m v s).sp = s.sp := rfl
@[simp] theorem storeWord_pc (m : AddrMode) (v : Word) (s : State) : (storeWord m v s).pc = s.pc := rfl
@[simp] theorem storeWord_ticks (m : AddrMode) (v : Word) (s : State) : (storeWord m v s).ticks = s.ticks := rfl
@[simp] theorem storeWord_mem (m : AddrMode) (v : Word) (s : State) : (storeWord m v s).mem = writeWord s.mem (effectiveAddress m s) v := rfl
@[simp] theorem storeWord_initialized (m : AddrMode) (v : Word) (s : State) : (storeWord m v s).initialized = s.initialized := rfl
@[simp] theorem storeWord_faultMark (m : AddrMode) (v : Word) (s : State) : (storeWord m v s).faultMark = s.faultMark := rfl

@[simp] theorem setFlags_a (fl : Flags) (s : State) : (setFlags fl s).a = s.a := rfl
@[simp] theorem setFlags_b (fl : Flags) (s : State) : (setFlags fl s).b = s.b := rfl
@[simp] theorem setFlags_c (fl : Flags) (s : State) : (setFlags fl s).c = s.c := rfl
@[simp] theorem setFlags_d (fl : Flags) (s : State) : (setFlags fl s).d = s.d := rfl
@[simp] theorem setFlags_e (fl : Flags) (s : State) : (setFlags fl s).e = s.e := rfl
@[simp] theorem setFlags_h (fl : Flags) (s : State) : (setFlags fl s).h = s.h := rfl
@[simp] theorem setFlags_l (fl : Flags) (s : State) : (setFlags fl s).l = s.l := rfl
@[simp] theorem setFlags_f (fl : Flags) (s : State) : (setFlags fl s).f = setBit (setBit (setBit (setBit s.f zBit fl.z) nBit fl.n) hBit fl.h) cBit fl.c := rfl
@[simp] theorem setFlags_sp (fl : Flags) (s : State) : (setFlags fl s).sp = s.sp := rfl
@[simp] theorem setFlags_pc (fl : Flags) (s : State) : (setFlags fl s).pc = s.pc := rfl
@[simp] theorem setFlags_ticks (fl : Flags) (s : State) : (setFlags fl s).ticks = s.ticks := rfl
@[simp] theorem setFlags_mem (fl : Flags) (s : State) : (setFlags fl s).mem = s.mem := rfl
@[simp] theorem setFlags_initialized (fl : Flags) (s : State) : (setFlags fl s).initialized = s.initialized := rfl
@[simp] theorem setFlags_faultMark (fl : Flags) (s : State) : (setFlags fl s).faultMark = s.faultMark := rfl

@[simp] theorem setFlagsNHC_a (fl : Flags) (s : State) : (setFlagsNHC fl s).a = s.a := rfl
@[simp] theorem setFlagsNHC_b (fl : Flags) (s : State) : (setFlagsNHC fl s).b = s.b := rfl
@[simp] theorem setFlagsNHC_c (fl : Flags) (s : State) : (setFlagsNHC fl s).c = s.c := rfl
@[simp] theorem setFlagsNHC_d (fl : Flags) (s : State) : (setFlagsNHC fl s).d = s.d := rfl
@[simp] theorem setFlagsNHC_e (fl : Flags) (s : State) : (setFlagsNHC fl s).e = s.e := rfl
@[simp] theorem setFlagsNHC_h (fl : Flags) (s : State) : (setFlagsNHC fl s).h = s.h := rfl
@[simp] theorem setFlagsNHC_l (fl : Flags) (s : State) : (setFlagsNHC fl s).l = s.l := rfl
@[simp] theorem setFlagsNHC_f (fl : Flags) (s : State) : (setFlagsNHC fl s).f = setBit (setBit (setBit s.f nBit fl.n) hBit fl.h) cBit fl.c := rfl
@[simp] theorem setFlagsNHC_sp (fl : Flags) (s : State) : (setFlagsNHC fl s).sp = s.sp := rfl
@[simp] theorem setFlagsNHC_pc (fl : Flags) (s : State) : (setFlagsNHC fl s).pc = s.pc := rfl
@[simp] theorem setFlagsNHC_ticks (fl : Flags) (s : State) : (setFlagsNHC fl s).ticks = s.ticks := rfl
@[simp] theorem setFlagsNHC_mem (fl : Flags) (s : State) : (setFlagsNHC fl s).mem = s.mem := rfl
@[simp] theorem setFlagsNHC_initialized (fl : Flags) (s : State) : (setFlagsNHC fl s).initialized = s.initialized := rfl
@[simp] theorem setFlagsNHC_faultMark (fl : Flags) (s : State) : (setFlagsNHC fl s).faultMark = s.faultMark := rfl

@[simp] theorem set8_a_a (v : Byte) (s : State) : (set8 .a v s).a = v := rfl
@[simp] theorem set8_a_b (v : Byte) (s : State) : (set8 .a v s).b = s.b := rfl
@[simp] theorem set8_a_c (v : Byte) (s : State) : (set8 .a v s).c = s.c := rfl
@[simp] theorem set8_a_d (v : Byte) (s : State) : (set8 .a v s).d = s.d := rfl
@[simp] theorem set8_a_e (v : Byte) (s : State) : (set8 .a v s).e = s.e := rfl
@[simp] theorem set8_a_h (v : Byte) (s : State) : (set8 .a v s).h = s.h := rfl
@[simp] theorem set8_a_l (v : Byte) (s : State) : (set8 .a v s).l = s.l := rfl
@[simp] theorem set8_a_f (v : Byte) (s : State) : (set8 .a v s).f = s.f := rfl
@[simp] theorem set8_a_sp (v : Byte) (s : State) : (set8 .a v s).sp = s.sp := rfl
@[simp] theorem set8_a_pc (v : Byte) (s : State) : (set8 .a v s).pc = s.pc := rfl
@[simp] theorem set8_a_ticks (v : Byte) (s : State) : (set8 .a v s).ticks = s.ticks := rfl
@[simp] theorem set8_a_mem (v : Byte) (s : State) : (set8 .a v s).mem = s.mem := rfl
@[simp] theorem set8_a_initialized (v : Byte) (s : State) : (set8 .a v s).initialized = s.initialized := rfl
@[simp] theorem set8_a_faultMark (v : Byte) (s : State) : (set8 .a v s).faultMark = s.faultMark := rfl

@[simp] theorem set8_b_a (v : Byte) (s : State) : (set8 .b v s).a = s.a := rfl
@[simp] theorem set8_b_b (v : Byte) (s : State) : (set8 .b v s).b = v := rfl
@[simp] theorem set8_b_c (v : Byte) (s : State) : (set8 .b v s).c = s.c := rfl
@[simp] theorem set8_b_d (v : Byte) (s : State) : (set8 .b v s).d = s.d := rfl
@[simp] theorem set8_b_e (v : Byte) (s : State) : (set8 .b v s).e = s.e := rfl
@[simp] theorem set8_b_h (v : Byte) (s : State) : (set8 .b v s).h = s.h := rfl
@[simp] theorem set8_b_l (v : Byte) (s : State) : (set8 .b v s).l = s.l := rfl
@[simp] theorem set8_b_f (v : Byte) (s : State) : (set8 .b v s).f = s.f := rfl
@[simp] theorem set8_b_sp (v : Byte) (s : State) : (set8 .b v s).sp = s.sp := rfl
@[simp] theorem set8_b_pc (v : Byte) (s : State) : (set8 .b v s).pc = s.pc := rfl
@[simp] theorem set8_b_ticks (v : Byte) (s : State) : (set8 .b v s).ticks = s.ticks := rfl
@[simp] theorem set8_b_mem (v : Byte) (s : State) : (set8 .b v s).mem = s.mem := rfl
@[simp] theorem set8_b_initialized (v : Byte) (s : State) : (set8 .b v s).initialized = s.initialized := rfl
@[simp] theorem set8_b_faultMark (v : Byte) (s : State) : (set8 .b v s).faultMark = s.faultMark := rfl

@[simp] theorem set8_c_a (v : Byte) (s : State) : (set8 .c v s).a = s.a := rfl
@[simp] theorem set8_c_b (v : Byte) (s : State) : (set8 .c v s).b = s.b := rfl
@[simp] theorem set8_c_c (v : Byte) (s : State) : (set8 .c v s).c = v := rfl
@[simp] theorem set8_c_d (v : Byte) (s : State) : (set8 .c v s).d = s.d := rfl
@[simp] theorem set8_c_e (v : Byte) (s : State) : (set8 .c v s).e = s.e := rfl
@[simp] theorem set8_c_h (v : Byte) (s : State) : (set8 .c v s).h = s.h := rfl
@[simp] theorem set8_c_l (v : Byte) (s : State) : (set8 .c v s).l = s.l := rfl
@[simp] theorem set8_c_f (v : Byte) (s : State) : (set8 .c v s).f = s.f := rfl
@[simp] theorem set8_c_sp (v : Byte) (s : State) : (set8 .c v s).sp = s.sp := rfl
@[simp] theorem set8_c_pc (v : Byte) (s : State) : (set8 .c v s).pc = s.pc := rfl
@[simp] theorem set8_c_ticks (v : Byte) (s : State) : (set8 .c v s).ticks = s.ticks := rfl
@[simp] theorem set8_c_mem (v : Byte) (s : State) : (set8 .c v s).mem = s.mem := rfl
@[simp] theorem set8_c_initialized (v : Byte) (s : State) : (set8 .c v s).initialized = s.initialized := rfl
@[simp] theorem set8_c_faultMark (v : Byte) (s : State) : (set8 .c v s).faultMark = s.faultMark := rfl

@[simp] theorem set8_d_a (v : Byte) (s : State) : (set8 .d v s).a = s.a := rfl
@[simp] theorem set8_d_b (v : Byte) (s : State) : (set8 .d v s).b = s.b := rfl
@[simp] theorem set8_d_c (v : Byte) (s : State) : (set8 .d v s).c = s.c := rfl
@[simp] theorem set8_d_d (v : Byte) (s : State) : (set8 .d v s).d = v := rfl
@[simp] theorem set8_d_e (v : Byte) (s : State) : (set8 .d v s).e = s.e := rfl
@[simp] theorem set8_d_h (v : Byte) (s : State) : (set8 .d v s).h = s.h := rfl
@[simp] theorem set8_d_l (v : Byte) (s : State) : (set8 .d v s).l = s.l := rfl
@[simp] theorem set8_d_f (v : Byte) (s : State) : (set8 .d v s).f = s.f := rfl
@[simp] theorem set8_d_sp (v : Byte) (s : State) : (set8 .d v s).sp = s.sp := rfl
@[simp] theorem set8_d_pc (v : Byte) (s : State) : (set8 .d v s).pc = s.pc := rfl
@[simp] theorem set8_d_ticks (v : Byte) (s : State) : (set8 .d v s).ticks = s.ticks := rfl
@[simp] theorem set8_d_mem (v : Byte) (s : State) : (set8 .d v s).mem = s.mem := rfl
@[simp] theorem set8_d_initialized (v : Byte) (s : State) : (set8 .d v s).initialized = s.initialized := rfl
@[simp] theorem set8_d_faultMark (v : Byte) (s : State) : (set8 .d v s).faultMark = s.faultMark := rfl

@[simp] theorem set8_e_a (v : Byte) (s : State) : (set8 .e v s).a = s.a := rfl
@[simp] theorem set8_e_b (v : Byte) (s : State) : (set8 .e v s).b = s.b := rfl
@[simp] theorem set8_e_c (v : Byte) (s : State) : (set8 .e v s).c = s.c := rfl
@[simp] theorem set8_e_d (v : Byte) (s : State) : (set8 .e v s).d = s.d := rfl
@[simp] theorem set8_e_e (v : Byte) (s : State) : (set8 .e v s).e = v := rfl
@[simp] theorem set8_e_h (v : Byte) (s : State) : (set8 .e v s).h = s.h := rfl
@[simp] theorem set8_e_l (v : Byte) (s : State) : (set8 .e v s).l = s.l := rfl
@[simp] theorem set8_e_f (v : Byte) (s : State) : (set8 .e v s).f = s.f := rfl
@[simp] theorem set8_e_sp (v : Byte) (s : State) : (set8 .e v s).sp = s.sp := rfl
@[simp] theorem set8_e_pc (v : Byte) (s : State) : (set8 .e v s).pc = s.pc := rfl
@[simp] theorem set8_e_ticks (v : Byte) (s : State) : (set8 .e v s).ticks = s.ticks := rfl
@[simp] theorem set8_e_mem (v : Byte) (s : State) : (set8 .e v s).mem = s.mem := rfl
@[simp] theorem set8_e_initialized (v : Byte) (s : State) : (set8 .e v s).initialized = s.initialized := rfl
@[simp] theorem set8_e_faultMark (v : Byte) (s : State) : (set8 .e v s).faultMark = s.faultMark := rfl

@[simp] theorem set8_h_a (v : Byte) (s : State) : (set8 .h v s).a = s.a := rfl
@[simp] theorem set8_h_b (v : Byte) (s : State) : (set8 .h v s).b = s.b := rfl
@[simp] theorem set8_h_c (v : Byte) (s : State) : (set8 .h v s).c = s.c := rfl
@[simp] theorem set8_h_d (v : Byte) (s : State) : (set8 .h v s).d = s.d := rfl
@[simp] theorem set8_h_e (v : Byte) (s : State) : (set8 .h v s).e = s.e := rfl
@[simp] theorem set8_h_h (v : Byte) (s : State) : (set8 .h v s).h = v := rfl
@[simp] theorem set8_h_l (v : Byte) (s : State) : (set8 .h v s).l = s.l := rfl
@[simp] theorem set8_h_f (v : Byte) (s : State) : (set8 .h v s).f = s.f := rfl
@[simp] theorem set8_h_sp (v : Byte) (s : State) : (set8 .h v s).sp = s.sp := rfl
@[simp] theorem set8_h_pc (v : Byte) (s : State) : (set8 .h v s).pc = s.pc := rfl
@[simp] theorem set8_h_ticks (v : Byte) (s : State) : (set8 .h v s).ticks = s.ticks := rfl
@[simp] theorem set8_h_mem (v : Byte) (s : State) : (set8 .h v s).mem = s.mem := rfl
@[simp] theorem set8_h_initialized (v : Byte) (s : State) : (set8 .h v s).initialized = s.initialized := rfl
@[simp] theorem set8_h_faultMark (v : Byte) (s : State) : (set8 .h v s).faultMark = s.faultMark := rfl

@[simp] theorem set8_l_a (v : Byte) (s : State) : (set8 .l v s).a = s.a := rfl
@[simp] theorem set8_l_b (v : Byte) (s : State) : (set8 .l v s).b = s.b := rfl
@[simp] theorem set8_l_c (v : Byte) (s : State) : (set8 .l v s).c = s.c := rfl
@[simp] theorem set8_l_d (v : Byte) (s : State) : (set8 .l v s).d = s.d := rfl
@[simp] theorem set8_l_e (v : Byte) (s : State) : (set8 .l v s).e = s.e := rfl
@[simp] theorem set8_l_h (v : Byte) (s : State) : (set8 .l v s).h = s.h := rfl
@[simp] theorem set8_l_l (v : Byte) (s : State) : (set8 .l v s).l = v := rfl
@[simp] theorem set8_l_f (v : Byte) (s : State) : (set8 .l v s).f = s.f := rfl
@[simp] theorem set8_l_sp (v : Byte) (s : State) : (set8 .l v s).sp = s.sp := rfl
@[simp] theorem set8_l_pc (v : Byte) (s : State) : (set8 .l v s).pc = s.pc := rfl
@[simp] theorem set8_l_ticks (v : Byte) (s : State) : (set8 .l v s).ticks = s.ticks := rfl
@[simp] theorem set8_l_mem (v : Byte) (s : State) : (set8 .l v s).mem = s.mem := rfl
@[simp] theorem set8_l_initialized (v : Byte) (s : State) : (set8 .l v s).initialized = s.initialized := rfl
@[simp] theorem set8_l_faultMark (v : Byte) (s : State) : (set8 .l v s).faultMark = s.faultMark := rfl

@[simp] theorem set8_f_a (v : Byte) (s : State) : (set8 .f v s).a = s.a := rfl
@[simp] theorem set8_f_b (v : Byte) (s : State) : (set8 .f v s).b = s.b := rfl
@[simp] theorem set8_f_c (v : Byte) (s : State) : (set8 .f v s).c = s.c := rfl
@[simp] theorem set8_f_d (v : Byte) (s : State) : (set8 .f v s).d = s.d := rfl
@[simp] theorem set8_f_e (v : Byte) (s : State) : (set8 .f v s).e = s.e := rfl
@[simp] theorem set8_f_h (v : Byte) (s : State) : (set8 .f v s).h = s.h := rfl
@[simp] theorem set8_f_l (v : Byte) (s : State) : (set8 .f v s).l = s.l := rfl
@[simp] theorem set8_f_f (v : Byte) (s : State) : (set8 .f v s).f = v &&& 0xF0#8 := rfl
@[simp] theorem set8_f_sp (v : Byte) (s : State) : (set8 .f v s).sp = s.sp := rfl
@[simp] theorem set8_f_pc (v : Byte) (s : State) : (set8 .f v s).pc = s.pc := rfl
@[simp] theorem set8_f_ticks (v : Byte) (s : State) : (set8 .f v s).ticks = s.ticks := rfl
@[simp] theorem set8_f_mem (v : Byte) (s : State) : (set8 .f v s).mem = s.mem := rfl
@[simp] theorem set8_f_initialized (v : Byte) (s : State) : (set8 .f v s).initialized = s.initialized := rfl
@[simp] theorem set8_f_faultMark (v : Byte) (s : State) : (set8 .f v s).faultMark = s.faultMark := rfl

@[simp] theorem setPair_bc_a (v : Word) (s : State) : (setPair .bc v s).a = s.a := rfl
@[simp] theorem setPair_bc_b (v : Word) (s : State) : (setPair .bc v s).b = hiByte v := rfl
@[simp] theorem setPair_bc_c (v : Word) (s : State) : (setPair .bc v s).c = loByte v := rfl
@[simp] theorem setPair_bc_d (v : Word) (s : State) : (setPair .bc v s).d = s.d := rfl
@[simp] theorem setPair_bc_e (v : Word) (s : State) : (setPair .bc v s).e = s.e := rfl
@[simp] theorem setPair_bc_h (v : Word) (s : State) : (setPair .bc v s).h = s.h := rfl
@[simp] theorem setPair_bc_l (v : Word) (s : State) : (setPair .bc v s).l = s.l := rfl
@[simp] theorem setPair_bc_f (v : Word) (s : State) : (setPair .bc v s).f = s.f := rfl
@[simp] theorem setPair_bc_sp (v : Word) (s : State) : (setPair .bc v s).sp = s.sp := rfl
@[simp] theorem setPair_bc_pc (v : Word) (s : State) : (setPair .bc v s).pc = s.pc := rfl
@[simp] theorem setPair_bc_ticks (v : Word) (s : State) : (setPair .bc v s).ticks = s.ticks := rfl
@[simp] theorem setPair_bc_mem (v : Word) (s : State) : (setPair .bc v s).mem = s.mem := rfl
@[simp] theorem setPair_bc_initialized (v : Word) (s : State) : (setPair .bc v s).initialized = s.initialized := rfl
@[simp] theorem setPair_bc_faultMark (v : Word) (s : State) : (setPair .bc v s).faultMark = s.faultMark := rfl

@[simp] theorem setPair_de_a (v : Word) (s : State) : (setPair .de v s).a = s.a := rfl
@[simp] theorem setPair_de_b (v : Word) (s : State) : (setPair .de v s).b = s.b := rfl
@[simp] theorem setPair_de_c (v : Word) (s : State) : (setPair .de v s).c = s.c := rfl
@[simp] theorem setPair_de_d (v : Word) (s : State) : (setPair .de v s).d = hiByte v := rfl
@[simp] theorem setPair_de_e (v : Word) (s : State) : (setPair .de v s).e = loByte v := rfl
@[simp] theorem setPair_de_h (v : Word) (s : State) : (setPair .de v s).h = s.h := rfl
@[simp] theorem setPair_de_l (v : Word) (s : State) : (setPair .de v s).l = s.l := rfl
@[simp] theorem setPair_de_f (v : Word) (s : State) : (setPair .de v s).f = s.f := rfl
@[simp] theorem setPair_de_sp (v : Word) (s : State) : (setPair .de v s).sp = s.sp := rfl
@[simp] theorem setPair_de_pc (v : Word) (s : State) : (setPair .de v s).pc = s.pc := rfl
@[simp] theorem setPair_de_ticks (v : Word) (s : State) : (setPair .de v s).ticks = s.ticks := rfl
@[simp] theorem setPair_de_mem (v : Word) (s : State) : (setPair .de v s).mem = s.mem := rfl
@[simp] theorem setPair_de_initialized (v : Word) (s : State) : (setPair .de v s).initialized = s.initialized := rfl
@[simp] theorem setPair_de_faultMark (v : Word) (s : State) : (setPair .de v s).faultMark = s.faultMark := rfl

@[simp] theorem setPair_hl_a (v : Word) (s : State) : (setPair .hl v s).a = s.a := rfl
@[simp] theorem setPair_hl_b (v : Word) (s : State) : (setPair .hl v s).b = s.b := rfl
@[simp] theorem setPair_hl_c (v : Word) (s : State) : (setPair .hl v s).c = s.c := rfl
@[simp] theorem setPair_hl_d (v : Word) (s : State) : (setPair .hl v s).d = s.d := rfl
@[simp] theorem setPair_hl_e (v : Word) (s : State) : (setPair .hl v s).e = s.e := rfl
@[simp] theorem setPair_hl_h (v : Word) (s : State) : (setPair .hl v s).h = hiByte v := rfl
@[simp] theorem setPair_hl_l (v : Word) (s : State) : (setPair .hl v s).l = loByte v := rfl
@[simp] theorem setPair_hl_f (v : Word) (s : State) : (setPair .hl v s).f = s.f := rfl
@[simp] theorem setPair_hl_sp (v : Word) (s : State) : (setPair .hl v s).sp = s.sp := rfl
@[simp] theorem setPair_hl_pc (v : Word) (s : State) : (setPair .hl v s).pc = s.pc := rfl
@[simp] theorem setPair_hl_ticks (v : Word) (s : State) : (setPair .hl v s).ticks = s.ticks := rfl
@[simp] theorem setPair_hl_mem (v : Word) (s : State) : (setPair .hl v s).mem = s.mem := rfl
@[simp] theorem setPair_hl_initialized (v : Word) (s : State) : (setPair .hl v s).initialized = s.initialized := rfl
@[simp] theorem setPair_hl_faultMark (v : Word) (s : State) : (setPair .hl v s).faultMark = s.faultMark := rfl

@[simp] theorem setPair_af_a (v : Word) (s : State) : (setPair .af v s).a = hiByte v := rfl
@[simp] theorem setPair_af_b (v : Word) (s : State) : (setPair .af v s).b = s.b := rfl
@[simp] theorem setPair_af_c (v : Word) (s : State) : (setPair .af v s).c = s.c := rfl
@[simp] theorem setPair_af_d (v : Word) (s : State) : (setPair .af v s).d = s.d := rfl
@[simp] theorem setPair_af_e (v : Word) (s : State) : (setPair .af v s).e = s.e := rfl
@[simp] theorem setPair_af_h (v : Word) (s : State) : (setPair .af v s).h = s.h := rfl
@[simp] theorem setPair_af_l (v : Word) (s : State) : (setPair .af v s).l = s.l := rfl
@[simp] theorem setPair_af_f (v : Word) (s : State) : (setPair .af v s).f = loByte v &&& 0xF0#8 := rfl
@[simp] theorem setPair_af_sp (v : Word) (s : State) : (setPair .af v s).sp = s.sp := rfl
@[simp] theorem setPair_af_pc (v : Word) (s : State) : (setPair .af v s).pc = s.pc := rfl
@[simp] theorem setPair_af_ticks (v : Word) (s : State) : (setPair .af v s).ticks = s.ticks := rfl
@[simp] theorem setPair_af_mem (v : Word) (s : State) : (setPair .af v s).mem = s.mem := rfl
@[simp] theorem setPair_af_initialized (v : Word) (s : State) : (setPair .af v s).initialized = s.initialized := rfl
@[simp] theorem setPair_af_faultMark (v : Word) (s : State) : (setPair .af v s).faultMark = s.faultMark := rfl

@[simp] theorem set8_sp (r : Reg8) (v : Byte) (s : State) : (set8 r v s).sp = s.sp := by cases r <;> rfl
@[simp] theorem set8_pc (r : Reg8) (v : Byte) (s : State) : (set8 r v s).pc = s.pc := by cases r <;> rfl
@[simp] theorem set8_ticks (r : Reg8) (v : Byte) (s : State) : (set8 r v s).ticks = s.ticks := by cases r <;> rfl
@[simp] theorem set8_mem (r : Reg8) (v : Byte) (s : State) : (set8 r v s).mem = s.mem := by cases r <;> rfl
@[simp] theorem set8_initialized (r : Reg8) (v : Byte) (s : State) : (set8 r v s).initialized = s.initialized := by cases r <;> rfl
@[simp] theorem set8_faultMark (r : Reg8) (v : Byte) (s : State) : (set8 r v s).faultMark = s.faultMark := by cases r <;> rfl

@[simp] theorem setPair_sp (p : Pair) (v : Word) (s : State) : (setPair p v s).sp = s.sp := by simp [setPair]
@[simp] theorem setPair_pc (p : Pair) (v : Word) (s : State) : (setPair p v s).pc = s.pc := by simp [setPair]
@[simp] theorem setPair_ticks (p : Pair) (v : Word) (s : State) : (setPair p v s).ticks = s.ticks := by simp [setPair]
@[simp] theorem setPair_mem (p : Pair) (v : Word) (s : State) : (setPair p v s).mem = s.mem := by simp [setPair]
@[simp] theorem setPair_initialized (p : Pair) (v : Word) (s : State) : (setPair p v s).initialized = s.initialized := by simp [setPair]
@[simp] theorem setPair_faultMark (p : Pair) (v : Word) (s : State) : (setPair p v s).faultMark = s.faultMark := by simp [setPair]

end Sys2Proof.Laws
end

