-- ==== Sys2Proof/Laws/Operands.lean ====
section
/-! SUPPORT. Laws of the register accessors and pair views (R22, R25). -/

namespace Sys2Proof.Laws

open Sys2Proof.Machine

/-- Writing a general register: it reads as written. F keeps its low nibble zero. -/
theorem get8_set8_self (r : Reg8) (v : Byte) (s : State) :
    get8 r (set8 r v s) = if r = .f then v &&& 0xF0#8 else v := by
  cases r <;> rfl

/-- Writing a register leaves every other register as it was. -/
theorem get8_set8_ne (r q : Reg8) (v : Byte) (s : State) (h : q ≠ r) : get8 q (set8 r v s) = get8 q s := by
  cases r <;> cases q <;> first | rfl | exact absurd rfl h

@[simp] theorem getPair_bc (s : State) : getPair .bc s = cat s.b s.c := rfl
@[simp] theorem getPair_de (s : State) : getPair .de s = cat s.d s.e := rfl
@[simp] theorem getPair_hl (s : State) : getPair .hl s = cat s.h s.l := rfl
@[simp] theorem getPair_af (s : State) : getPair .af s = cat s.a s.f := rfl

@[simp] theorem effectiveAddress_indirectBc (s : State) : effectiveAddress .indirectBc s = cat s.b s.c := rfl
@[simp] theorem effectiveAddress_absolute (a16 : Word) (s : State) : effectiveAddress (.absolute a16) s = a16 := rfl

end Sys2Proof.Laws
end

