-- ==== Sys2Proof/Laws/Flags.lean ====
section
/-! SUPPORT. Laws of the flag accessors (R9, R26, R27): a written flag reads as written, the others keep their values,
and F's low nibble is never touched. -/

namespace Sys2Proof.Laws

open Sys2Proof.Machine

theorem getFlags_setFlags (fl : Flags) (s : State) : getFlags (setFlags fl s) = fl := by
  simp [getFlags, getBit_setBit_self, getBit_setBit_ne, zBit, nBit, hBit, cBit]

theorem getFlags_setFlagsNHC (fl : Flags) (s : State) :
    getFlags (setFlagsNHC fl s) = ⟨(getFlags s).z, fl.n, fl.h, fl.c⟩ := by
  simp [getFlags, getBit_setBit_self, getBit_setBit_ne, zBit, nBit, hBit, cBit]

theorem lowNibble_setFlags (fl : Flags) (s : State) : lowNibble (setFlags fl s).f = lowNibble s.f := by
  simp [lowNibble_setBit, zBit, nBit, hBit, cBit]

theorem lowNibble_setFlagsNHC (fl : Flags) (s : State) : lowNibble (setFlagsNHC fl s).f = lowNibble s.f := by
  simp [lowNibble_setBit, nBit, hBit, cBit]

/-- The flags live in F alone. -/
theorem getFlags_set8_of_ne_f (r : Reg8) (v : Byte) (s : State) (h : r ≠ .f) : getFlags (set8 r v s) = getFlags s := by
  cases r <;> first | rfl | exact absurd rfl h

end Sys2Proof.Laws
end

