-- ==== Sys2Proof/Laws/Memory.lean ====
section
/-! SUPPORT. Laws of the memory behind the bus: a read after a write, and that every write keeps the canonical form. -/

namespace Sys2Proof.Laws

open Sys2Proof.Machine

theorem readCell_insertCell_self (a : Nat) (v : Byte) (m : Memory) (h : ∀ c ∈ m, c.1 ≠ a) :
    readCell (insertCell a v m) a = v := by
  induction m with
  | nil => simp [insertCell, readCell]
  | cons c m ih =>
    obtain ⟨k, w⟩ := c
    have hk : k ≠ a := h (k, w) (by simp)
    by_cases hlt : a < k
    · simp [insertCell, readCell, hlt]
    · simp only [insertCell, hlt, if_false, readCell, hk]
      exact ih fun c hc => h c (by simp [hc])

theorem readCell_insertCell_ne (a b : Nat) (v : Byte) (m : Memory) (h : a ≠ b) :
    readCell (insertCell a v m) b = readCell m b := by
  induction m with
  | nil => simp [insertCell, readCell, h]
  | cons c m ih =>
    obtain ⟨k, w⟩ := c
    by_cases hlt : a < k
    · simp [insertCell, readCell, hlt, h]
    · simp [insertCell, readCell, hlt, ih]

theorem readCell_dropCell_self (a : Nat) (m : Memory) : readCell (dropCell a m) a = unlistedByte := by
  induction m with
  | nil => rfl
  | cons c m ih =>
    obtain ⟨k, w⟩ := c
    by_cases hk : k = a
    · simpa [dropCell, hk] using ih
    · simpa [dropCell, readCell, hk] using ih

theorem readCell_dropCell_ne (a b : Nat) (m : Memory) (h : a ≠ b) : readCell (dropCell a m) b = readCell m b := by
  induction m with
  | nil => rfl
  | cons c m ih =>
    obtain ⟨k, w⟩ := c
    by_cases hk : k = a
    · have hkb : k ≠ b := by omega
      simpa [dropCell, readCell, hk, h] using ih
    · by_cases hkb : k = b
      · simp [dropCell, readCell, hkb, Ne.symm h]
      · simpa [dropCell, readCell, hk, hkb] using ih

theorem dropCell_keys (a : Nat) (m : Memory) : ∀ c ∈ dropCell a m, c.1 ≠ a := by
  intro c hc
  simpa [dropCell] using (List.mem_filter.mp hc).2

/-- R51, R52, R56: what a byte read gives after a byte write. -/
theorem readByte_writeByte (m : Memory) (a b : Word) (v : Byte) :
    readByte (writeByte m a v) b = if b = a then v else readByte m b := by
  unfold readByte writeByte
  by_cases hb : b = a
  · subst hb
    by_cases hv : v = unlistedByte
    · simp [hv, readCell_dropCell_self]
    · simp [hv, readCell_insertCell_self _ _ _ (dropCell_keys _ _)]
  · have hne : a.toNat ≠ b.toNat := fun h => hb (BitVec.eq_of_toNat_eq h.symm)
    by_cases hv : v = unlistedByte
    · simp [hv, hb, readCell_dropCell_ne _ _ _ hne]
    · simp [hv, hb, readCell_insertCell_ne _ _ _ _ hne, readCell_dropCell_ne _ _ _ hne]

@[simp] theorem readByte_writeByte_self (m : Memory) (a : Word) (v : Byte) : readByte (writeByte m a v) a = v := by
  simp [readByte_writeByte]

theorem readByte_writeByte_ne (m : Memory) (a b : Word) (v : Byte) (h : b ≠ a) :
    readByte (writeByte m a v) b = readByte m b := by
  simp [readByte_writeByte, h]

/-- R54: what a byte read gives after a word write. -/
theorem readByte_writeWord (m : Memory) (a b v : Word) :
    readByte (writeWord m a v) b =
      if b = a + 1 then hiByte v else if b = a then loByte v else readByte m b := by
  simp [writeWord, readByte_writeByte]

theorem wfFrom_mono {lo lo' : Nat} {m : Memory} (h : Memory.wfFrom lo m = true) (hle : lo' ≤ lo) :
    Memory.wfFrom lo' m = true := by
  cases m with
  | nil => rfl
  | cons c m =>
    obtain ⟨k, w⟩ := c
    simp only [Memory.wfFrom, Bool.and_eq_true, decide_eq_true_eq] at h ⊢
    exact ⟨⟨⟨by omega, h.1.1.2⟩, h.1.2⟩, h.2⟩

theorem wfFrom_dropCell (a lo : Nat) (m : Memory) (h : Memory.wfFrom lo m = true) :
    Memory.wfFrom lo (dropCell a m) = true := by
  induction m generalizing lo with
  | nil => rfl
  | cons c m ih =>
    obtain ⟨k, w⟩ := c
    simp only [Memory.wfFrom, Bool.and_eq_true, decide_eq_true_eq] at h
    obtain ⟨⟨⟨h1, h2⟩, h3⟩, h4⟩ := h
    by_cases hk : k = a
    · have : dropCell a ((k, w) :: m) = dropCell a m := by simp [dropCell, hk]
      rw [this]
      exact wfFrom_mono (ih _ h4) (by omega)
    · have : dropCell a ((k, w) :: m) = (k, w) :: dropCell a m := by simp [dropCell, hk]
      rw [this]
      simp only [Memory.wfFrom, Bool.and_eq_true, decide_eq_true_eq]
      exact ⟨⟨⟨h1, h2⟩, h3⟩, ih _ h4⟩

theorem wfFrom_insertCell (a lo : Nat) (v : Byte) (m : Memory) (h : Memory.wfFrom lo m = true)
    (hlo : lo ≤ a) (ha : a < 65536) (hv : v ≠ unlistedByte) (hk : ∀ c ∈ m, c.1 ≠ a) :
    Memory.wfFrom lo (insertCell a v m) = true := by
  induction m generalizing lo with
  | nil => simp [insertCell, Memory.wfFrom, hlo, ha, hv]
  | cons c m ih =>
    obtain ⟨k, w⟩ := c
    have hka : k ≠ a := hk (k, w) (by simp)
    simp only [Memory.wfFrom, Bool.and_eq_true, decide_eq_true_eq] at h
    obtain ⟨⟨⟨h1, h2⟩, h3⟩, h4⟩ := h
    by_cases hlt : a < k
    · simp only [insertCell, hlt, if_true, Memory.wfFrom, Bool.and_eq_true, decide_eq_true_eq]
      exact ⟨⟨⟨hlo, ha⟩, hv⟩, ⟨⟨by omega, h2⟩, h3⟩, h4⟩
    · simp only [insertCell, hlt, if_false, Memory.wfFrom, Bool.and_eq_true, decide_eq_true_eq]
      exact ⟨⟨⟨h1, h2⟩, h3⟩, ih _ h4 (by omega) fun c hc => hk c (by simp [hc])⟩

/-- A byte write keeps the canonical form. -/
theorem wf_writeByte (m : Memory) (a : Word) (v : Byte) (h : Memory.wf m = true) :
    Memory.wf (writeByte m a v) = true := by
  unfold writeByte
  have hd := wfFrom_dropCell a.toNat 0 m h
  split
  · exact hd
  · next hv => exact wfFrom_insertCell _ _ _ _ hd (Nat.zero_le _) a.isLt hv (dropCell_keys _ _)

/-- A word write keeps the canonical form. -/
theorem wf_writeWord (m : Memory) (a v : Word) (h : Memory.wf m = true) : Memory.wf (writeWord m a v) = true :=
  wf_writeByte _ _ _ (wf_writeByte _ _ _ h)

/-- Placing a program keeps the canonical form. -/
theorem wf_writeBytes (m : Memory) (a : Word) (bs : List Byte) (h : Memory.wf m = true) :
    Memory.wf (writeBytes m a bs) = true := by
  induction bs generalizing m a with
  | nil => exact h
  | cons b bs ih => exact ih _ _ (wf_writeByte _ _ _ h)

/-- Memory at reset has the canonical form. -/
theorem wf_reset : Memory.wf State.reset.mem = true := rfl

@[simp] theorem readBytes_length (m : Memory) (a : Word) (n : Nat) : (readBytes m a n).length = n := by
  induction n generalizing a with
  | zero => rfl
  | succ n ih => simp [readBytes, ih]

end Sys2Proof.Laws
end

