-- ==== Sys2Proof/Laws/PerInstr.lean ====
section
/-! SUPPORT. Statements made of every instruction, one lemma per constructor. Family `EncodedLength`: an instruction's
bytes begin with an opcode that has a descriptor, and they are as many as that descriptor's length (R80). -/

namespace Sys2Proof.Laws.EncodedLength

/-- R80: the length is a property of the opcode alone. -/
def Statement (i : Instr) : Prop :=
  ∃ op rest d, encode i = op :: rest ∧ lookup op = some d ∧ (encode i).length = d.length ∧ i.ticks = d.ticks

theorem nop : Statement .nop := ⟨_, _, _, rfl, rfl, rfl, rfl⟩
theorem ldBcD16 (d16 : Word) : Statement (.ldBcD16 d16) := ⟨_, _, _, rfl, rfl, rfl, rfl⟩
theorem ldIBcA : Statement .ldIBcA := ⟨_, _, _, rfl, rfl, rfl, rfl⟩
theorem incBc : Statement .incBc := ⟨_, _, _, rfl, rfl, rfl, rfl⟩
theorem incB : Statement .incB := ⟨_, _, _, rfl, rfl, rfl, rfl⟩
theorem decB : Statement .decB := ⟨_, _, _, rfl, rfl, rfl, rfl⟩
theorem ldBD8 (d8 : Byte) : Statement (.ldBD8 d8) := ⟨_, _, _, rfl, rfl, rfl, rfl⟩
theorem rlca : Statement .rlca := ⟨_, _, _, rfl, rfl, rfl, rfl⟩
theorem ldIA16Sp (a16 : Word) : Statement (.ldIA16Sp a16) := ⟨_, _, _, rfl, rfl, rfl, rfl⟩
theorem addHlBc : Statement .addHlBc := ⟨_, _, _, rfl, rfl, rfl, rfl⟩
theorem ldAIBc : Statement .ldAIBc := ⟨_, _, _, rfl, rfl, rfl, rfl⟩
theorem decBc : Statement .decBc := ⟨_, _, _, rfl, rfl, rfl, rfl⟩
theorem incC : Statement .incC := ⟨_, _, _, rfl, rfl, rfl, rfl⟩
theorem decC : Statement .decC := ⟨_, _, _, rfl, rfl, rfl, rfl⟩
theorem ldCD8 (d8 : Byte) : Statement (.ldCD8 d8) := ⟨_, _, _, rfl, rfl, rfl, rfl⟩
theorem rrca : Statement .rrca := ⟨_, _, _, rfl, rfl, rfl, rfl⟩

end Sys2Proof.Laws.EncodedLength
end

