-- ==== Sys2Proof/Laws/Step.lean ====
section
/-! SUPPORT. What the meanings and a step can do, said once; later proofs cite these and do not unfold. -/

namespace Sys2Proof.Laws

open Sys2Proof.Machine

/-- `aluReg` on a register other than F, as one record. -/
theorem aluReg_regs (op : Byte → Flags → Byte × Flags) (r : Reg8) (s : State) :
    aluReg op r s = setFlags (op (get8 r s) (getFlags s)).2 (set8 r (op (get8 r s) (getFlags s)).1 s) := rfl

/-- An ALU function applied to a register other than F leaves F's low nibble as it was. -/
theorem aluReg_lowNibble (op : Byte → Flags → Byte × Flags) (r : Reg8) (s : State) (h : r ≠ .f) :
    lowNibble (aluReg op r s).f = lowNibble s.f := by
  rw [aluReg_regs, lowNibble_setFlags]
  cases r <;> first | exact absurd rfl h | rfl

/-- Everything that an ALU function applied to a register other than F can do: the register and the four flags take its
results, and F's low nibble, every other register, the control state and memory are as they were. -/
theorem aluReg_spec (op : Byte → Flags → Byte × Flags) (r : Reg8) (s : State) (h : r ≠ .f) :
    get8 r (aluReg op r s) = (op (get8 r s) (getFlags s)).1 ∧
    getFlags (aluReg op r s) = (op (get8 r s) (getFlags s)).2 ∧
    SameNibble s (aluReg op r s) ∧ SameRegsExcept [r, .f] s (aluReg op r s) ∧
    SameControl s (aluReg op r s) ∧ SameMemory s (aluReg op r s) := by
  refine ⟨?_, ?_, aluReg_lowNibble op r s h, ?_, ?_, ?_⟩
  · cases r <;> first | exact absurd rfl h | rfl
  · rw [aluReg_regs, getFlags_setFlags]
  · intro q hq
    cases r <;> cases q <;> first | exact absurd rfl h | rfl | exact absurd (by decide) hq
  · cases r <;> exact ⟨rfl, rfl, rfl, rfl, rfl⟩
  · intro a
    cases r <;> rfl

/-- What a byte store can do: the addressed byte reads as stored; all else is as it was. -/
theorem storeByte_spec (m : AddrMode) (v : Byte) (s : State) :
    readByte (storeByte m v s).mem (effectiveAddress m s) = v ∧
    SameMemoryExcept [effectiveAddress m s] s (storeByte m v s) ∧
    SameRegsExcept [] s (storeByte m v s) ∧ SameControl s (storeByte m v s) := by
  refine ⟨by simp, ?_, ?_, ⟨rfl, rfl, rfl, rfl, rfl⟩⟩
  · intro a ha
    exact readByte_writeByte_ne _ _ _ _ (by simpa using ha)
  · intro r _
    cases r <;> rfl

/-- What writing a pair other than AF can do: its two registers take the word's halves; all else is as it was. -/
theorem setPair_spec (p : Pair) (v : Word) (s : State) (h : p ≠ .af) :
    get8 p.high (setPair p v s) = hiByte v ∧ get8 p.low (setPair p v s) = loByte v ∧
    SameRegsExcept [p.high, p.low] s (setPair p v s) ∧ SameControl s (setPair p v s) ∧
    SameMemory s (setPair p v s) := by
  refine ⟨?_, ?_, ?_, ?_, ?_⟩
  · cases p <;> first | exact absurd rfl h | rfl
  · cases p <;> first | exact absurd rfl h | rfl
  · intro q hq
    cases p <;> cases q <;> first | exact absurd rfl h | rfl | exact absurd (by decide) hq
  · cases p <;> exact ⟨rfl, rfl, rfl, rfl, rfl⟩
  · intro a
    cases p <;> rfl

/-- Every operation answers a state (R137, R146, R164): none faults and none is refused. -/
theorem exec_eq_next (i : Instr) (s : State) : ∃ t, exec i s = .next t := by
  cases i <;> exact ⟨_, rfl⟩

/-- No operation writes SP, PC, TICKS, D, E, `initialized` or the fault mark (R28, R105, R111, R23). -/
theorem exec_keeps {i : Instr} {s t : State} (h : exec i s = .next t) :
    t.sp = s.sp ∧ t.pc = s.pc ∧ t.ticks = s.ticks ∧ t.d = s.d ∧ t.e = s.e ∧
      t.initialized = s.initialized ∧ t.faultMark = s.faultMark := by
  cases i <;> cases h <;> exact ⟨rfl, rfl, rfl, rfl, rfl, rfl, rfl⟩

/-- What an operation does to memory (R59): nothing, a byte write at BC, or a word write at a16. -/
theorem exec_mem {i : Instr} {s t : State} (h : exec i s = .next t) :
    t.mem = s.mem ∨ (i = .ldIBcA ∧ t.mem = writeByte s.mem (cat s.b s.c) s.a) ∨
      ∃ a16, i = .ldIA16Sp a16 ∧ t.mem = writeWord s.mem a16 s.sp := by
  cases i <;> cases h <;>
    first
    | exact .inl rfl
    | exact .inr (.inl ⟨rfl, rfl⟩)
    | exact .inr (.inr ⟨_, rfl, rfl⟩)

/-- No operation touches F's low nibble (R26). -/
theorem exec_lowNibble {i : Instr} {s t : State} (h : exec i s = .next t) : lowNibble t.f = lowNibble s.f := by
  cases i with
  | incB => cases h; exact aluReg_lowNibble inc8 .b s (by decide)
  | decB => cases h; exact aluReg_lowNibble dec8 .b s (by decide)
  | incC => cases h; exact aluReg_lowNibble inc8 .c s (by decide)
  | decC => cases h; exact aluReg_lowNibble dec8 .c s (by decide)
  | rlca => cases h; exact aluReg_lowNibble rl8 .a s (by decide)
  | rrca => cases h; exact aluReg_lowNibble (rr8 rotRightMode) .a s (by decide)
  | addHlBc => cases h; exact lowNibble_setFlagsNHC _ (setPair .hl _ s)
  | nop => cases h; rfl
  | ldBcD16 => cases h; rfl
  | ldIBcA => cases h; rfl
  | incBc => cases h; rfl
  | ldBD8 => cases h; rfl
  | ldIA16Sp => cases h; rfl
  | ldAIBc => cases h; rfl
  | decBc => cases h; rfl
  | ldCD8 => cases h; rfl

/-- R100 steps 1 to 3 where the lookup fails. -/
theorem fetch_unmapped {s : State} (h : lookup (readByte s.mem s.pc) = none) :
    fetch s = .unmapped (readByte s.mem s.pc) (advancePc 1 s) := by
  simp [fetch, h]

/-- R100 steps 1 to 4 where the lookup succeeds. -/
theorem fetch_mapped {s : State} {d : Descriptor} (h : lookup (readByte s.mem s.pc) = some d) :
    fetch s = .mapped (d.operation (immediate (readBytes s.mem (s.pc + 1) (d.length - 1)))) d.ticks
      (advancePc (d.length - 1) (advancePc 1 s)) := by
  simp [fetch, h]

/-- What a step that answers a state has done: raised UnmappedOpcode, or run one instruction and added its ticks. -/
theorem step_cases {s t : State} (h : step s = .next t) :
    s.initialized = true ∧
      ((lookup (readByte s.mem s.pc) = none ∧
          t = raiseUnmappedOpcode (readByte s.mem s.pc) (advancePc 1 s)) ∨
        ∃ d u, lookup (readByte s.mem s.pc) = some d ∧
          exec (d.operation (immediate (readBytes s.mem (s.pc + 1) (d.length - 1))))
            (advancePc (d.length - 1) (advancePc 1 s)) = .next u ∧
          t = addTicks d.ticks u) := by
  unfold step at h
  split at h
  · next hi =>
    refine ⟨hi, ?_⟩
    unfold engineStep at h
    cases hl : lookup (readByte s.mem s.pc) with
    | none =>
      rw [fetch_unmapped hl] at h
      exact .inl ⟨rfl, by injection h with h; exact h.symm⟩
    | some d =>
      rw [fetch_mapped hl] at h
      obtain ⟨u, hu⟩ := exec_eq_next (d.operation (immediate (readBytes s.mem (s.pc + 1) (d.length - 1))))
        (advancePc (d.length - 1) (advancePc 1 s))
      simp only [hu, thenTicks] at h
      exact .inr ⟨d, u, rfl, hu, by injection h with h; exact h.symm⟩
  · cases h

/-- The host's run of `k + 1` steps is one step and a run of `k`. -/
theorem run_succ_of_next (k : Nat) {s t : State} (h : step s = .next t) : core.run (k + 1) s = core.run k t := by
  have h' : core.step s = .next t := h
  simp [Host.Core.run, h']

/-- A run of `k + 1` steps that answers a state began with a step that did. -/
theorem run_succ_eq_next {k : Nat} {s t : State} (h : core.run (k + 1) s = .next t) :
    ∃ u, step s = .next u ∧ core.run k u = .next t := by
  cases hs : step s with
  | next u => exact ⟨u, rfl, by rwa [run_succ_of_next k hs] at h⟩
  | fault r =>
    have h' : core.step s = .fault r := hs
    simp [Host.Core.run, h'] at h
  | refused r =>
    have h' : core.step s = .refused r := hs
    simp [Host.Core.run, h'] at h

end Sys2Proof.Laws
end

