-- ==== Sys2Proof/Tests/Slice0.lean ====
section
/-! SUPPORT. Tests. Expected results come from the spec's own words: the encodings of 30_encoding.md R81 to R86, the worked
examples of the instruction rules and the vectors of 95_test_vectors.md. After them, one witness for the hypotheses of
each statement of Certificates/Slice0/Obligations.lean that has any. -/

namespace Sys2Proof.Tests

open Sys2Proof.Machine

/-! ### Well-formedness: a term that each check refuses -/

theorem test_wellFormed_refuses_empty : wellFormedEncoding [] = false := by decide
theorem test_wellFormed_refuses_unmapped : wellFormedEncoding [0x10#8] = false := by decide
theorem test_wellFormed_refuses_short : wellFormedEncoding [0x01#8, 0x34#8] = false := by decide
theorem test_wellFormed_refuses_long : wellFormedEncoding [0x06#8, 0x7F#8, 0x00#8] = false := by decide
theorem test_wellFormed_accepts_ld_bc : wellFormedEncoding [0x01#8, 0x34#8, 0x12#8] = true := by decide

/-! ### Decoding: every constructor's word, written out from R81 to R86 and opcode_table.json's `encoding` -/

theorem test_decode_nop : decode [0b00000000#8] = .ok (.nop, []) := rfl
theorem test_decode_ldBcD16 : decode [0b00000001#8, 0x34#8, 0x12#8] = .ok (.ldBcD16 0x1234#16, []) := rfl
theorem test_decode_ldIBcA : decode [0b00000010#8] = .ok (.ldIBcA, []) := rfl
theorem test_decode_incBc : decode [0b00000011#8] = .ok (.incBc, []) := rfl
theorem test_decode_incB : decode [0b00000100#8] = .ok (.incB, []) := rfl
theorem test_decode_decB : decode [0b00000101#8] = .ok (.decB, []) := rfl
theorem test_decode_ldBD8 : decode [0b00000110#8, 0x9A#8] = .ok (.ldBD8 0x9A#8, []) := rfl
theorem test_decode_rlca : decode [0b00000111#8] = .ok (.rlca, []) := rfl
theorem test_decode_ldIA16Sp : decode [0b00001000#8, 0x00#8, 0xC0#8] = .ok (.ldIA16Sp 0xC000#16, []) := rfl
theorem test_decode_addHlBc : decode [0b00001001#8] = .ok (.addHlBc, []) := rfl
theorem test_decode_ldAIBc : decode [0b00001010#8] = .ok (.ldAIBc, []) := rfl
theorem test_decode_decBc : decode [0b00001011#8] = .ok (.decBc, []) := rfl
theorem test_decode_incC : decode [0b00001100#8] = .ok (.incC, []) := rfl
theorem test_decode_decC : decode [0b00001101#8] = .ok (.decC, []) := rfl
theorem test_decode_ldCD8 : decode [0b00001110#8, 0x80#8] = .ok (.ldCD8 0x80#8, []) := rfl
theorem test_decode_rrca : decode [0b00001111#8] = .ok (.rrca, []) := rfl
/-- R90: 0xCB is no prefix. -/
theorem test_decode_cb : decode [0xCB#8, 0x07#8] = .error (.unmappedOpcode 0xCB#8) := rfl
theorem test_decode_short : decode [0x08#8, 0x00#8] = .error .truncated := rfl
/-- The table's bit numbering: bits 7..0 are the first byte, bits 15..8 the second (R83: the low byte of d16). -/
theorem test_tableWord : decodeTableWord 24 0x123401 = some (.ldBcD16 0x1234#16) := by decide
theorem test_tableWord_short : decodeTableWord 8 0x01 = some (.ldBcD16 0x0000#16) := by decide

/-! ### One step on a small state -/

/-- A state with bytes placed at an address and PC there. -/
def placed (pc : Word) (bytes : List Byte) (s : State) : State :=
  { s with pc := pc, mem := writeBytes s.mem pc bytes }

/-- The state a step answers, if it answers one. -/
def after (s : State) : Option State :=
  match step s with
  | .next t => some t
  | _ => none

/-- R110's worked example. -/
theorem test_nop : (after { placed 0x0200#16 [0x00#8] State.reset with ticks := 10#64 }).map (fun t => (t.pc, t.ticks)) =
    some (0x0201#16, 14#64) := by decide

/-- 95_test_vectors.md 2.8: PC wraps. -/
theorem test_nop_wrap : (after (placed 0xFFFF#16 [0x00#8] State.reset)).map (fun t => (t.pc, t.ticks)) =
    some (0x0000#16, 4#64) := by decide

/-- S7. -/
theorem test_ldBcD16 : (after (placed 0#16 [0x01#8, 0x34#8, 0x12#8] State.reset)).map (fun t => (t.b, t.c, t.pc, t.ticks)) =
    some (0x12#8, 0x34#8, 3#16, 12#64) := by decide

/-- 95_test_vectors.md 2.6: an instruction that straddles the address wrap. -/
theorem test_ldBcD16_wrap :
    (after (placed 0xFFFF#16 [0x01#8, 0x34#8, 0x12#8] State.reset)).map (fun t => (t.b, t.c, t.pc)) =
    some (0x12#8, 0x34#8, 2#16) := by decide

/-- R131's worked example. -/
theorem test_ldIBcA :
    (after (placed 0x0100#16 [0x02#8] { State.reset with a := 0x5A#8, b := 0xC0#8, c := 0x10#8 })).map
      (fun t => (readByte t.mem 0xC010#16, t.pc, t.ticks)) = some (0x5A#8, 0x0101#16, 8#64) := by decide

/-- 95_test_vectors.md 2.6: a store over the running instruction's own byte. -/
theorem test_ldIBcA_self : (after (placed 0#16 [0x02#8] State.reset)).map (fun t => (t.mem, t.pc)) =
    some ([], 1#16) := by decide

/-- R140's worked example. -/
theorem test_incBc :
    (after (placed 4#16 [0x03#8] { State.reset with b := 0x12#8, c := 0xFF#8, f := 0xB0#8 })).map
      (fun t => (t.b, t.c, t.f, t.pc, t.ticks)) = some (0x13#8, 0x00#8, 0xB0#8, 5#16, 8#64) := by decide

/-- R142's worked example. -/
theorem test_incB :
    (after (placed 0x0102#16 [0x04#8] { State.reset with b := 0x0F#8, f := 0x50#8 })).map
      (fun t => (t.b, t.f, t.pc, t.ticks)) = some (0x10#8, 0x30#8, 0x0103#16, 4#64) := by decide

/-- 95_test_vectors.md 2.7: the wrap keeps the carry flag. -/
theorem test_incB_wrap : (after (placed 0#16 [0x04#8] { State.reset with b := 0xFF#8, f := 0x10#8 })).map
    (fun t => (t.b, t.c, t.f)) = some (0x00#8, 0x00#8, 0xB0#8) := by decide

/-- R143's worked example. -/
theorem test_decB : (after (placed 0#16 [0x05#8] { State.reset with b := 0x01#8, f := 0x10#8 })).map
    (fun t => (t.b, t.f, t.pc, t.ticks)) = some (0x00#8, 0xD0#8, 1#16, 4#64) := by decide

/-- R132's worked example. -/
theorem test_ldBD8 : (after (placed 0x0010#16 [0x06#8, 0x7F#8] State.reset)).map (fun t => (t.b, t.pc, t.ticks)) =
    some (0x7F#8, 0x0012#16, 8#64) := by decide

/-- S8. -/
theorem test_rlca : (after (placed 0#16 [0x07#8] { State.reset with a := 0xFF#8 })).map
    (fun t => (t.a, t.f, t.pc, t.ticks)) = some (0xFE#8, 0x10#8, 1#16, 4#64) := by decide

/-- 95_test_vectors.md 2.3: the carry enters bit 0, and Z, N, H are forced to 0. -/
theorem test_rlca_carry : (after (placed 0#16 [0x07#8] { State.reset with a := 0x80#8, f := 0xF0#8 })).map
    (fun t => (t.a, t.f)) = some (0x01#8, 0x10#8) := by decide

/-- R134's worked example. -/
theorem test_ldIA16Sp : (after (placed 6#16 [0x08#8, 0x00#8, 0xC0#8] { State.reset with sp := 0xBEEF#16 })).map
    (fun t => (readByte t.mem 0xC000#16, readByte t.mem 0xC001#16, t.pc, t.ticks)) =
    some (0xEF#8, 0xBE#8, 9#16, 20#64) := by decide

/-- 95_test_vectors.md 2.6: the word wraps at the top of memory. -/
theorem test_ldIA16Sp_wrap : (after (placed 0#16 [0x08#8, 0xFF#8, 0xFF#8] { State.reset with sp := 0x1234#16 })).map
    (fun t => (readByte t.mem 0xFFFF#16, readByte t.mem 0x0000#16)) = some (0x34#8, 0x12#8) := by decide

/-- R152's worked example. -/
theorem test_addHlBc :
    (after (placed 0#16 [0x09#8] { State.reset with h := 0x0F#8, l := 0xFF#8, c := 0x01#8, f := 0xC0#8 })).map
      (fun t => (t.h, t.l, t.f, t.pc, t.ticks)) = some (0x10#8, 0x00#8, 0xA0#8, 1#16, 8#64) := by decide

/-- 95_test_vectors.md 2.5: carry without half-carry, a zero result that does not set Z. -/
theorem test_addHlBc_carry : (after (placed 0#16 [0x09#8] { State.reset with h := 0x80#8, b := 0x80#8 })).map
    (fun t => (t.h, t.l, t.f)) = some (0x00#8, 0x00#8, 0x10#8) := by decide

/-- 95_test_vectors.md 2.6: the load of the instruction's own opcode byte. -/
theorem test_ldAIBc : (after (placed 0#16 [0x0A#8] State.reset)).map (fun t => (t.a, t.pc, t.ticks)) =
    some (0x0A#8, 1#16, 8#64) := by decide

/-- R141's worked example. -/
theorem test_decBc : (after (placed 2#16 [0x0B#8] State.reset)).map (fun t => (t.b, t.c, t.f, t.pc, t.ticks)) =
    some (0xFF#8, 0xFF#8, 0x00#8, 3#16, 8#64) := by decide

/-- R144's worked example. -/
theorem test_incC : (after (placed 4#16 [0x0C#8] { State.reset with b := 0x12#8, c := 0xFF#8 })).map
    (fun t => (t.b, t.c, t.f, t.pc, t.ticks)) = some (0x12#8, 0x00#8, 0xA0#8, 5#16, 4#64) := by decide

/-- R145's worked example. -/
theorem test_decC : (after (placed 0x0106#16 [0x0D#8] { State.reset with b := 0x12#8, f := 0x80#8 })).map
    (fun t => (t.b, t.c, t.f, t.pc, t.ticks)) = some (0x12#8, 0xFF#8, 0x60#8, 0x0107#16, 4#64) := by decide

/-- R133's worked example: loading zero does not set Z. -/
theorem test_ldCD8 : (after (placed 0x0010#16 [0x0E#8, 0x00#8] { State.reset with c := 0xAA#8 })).map
    (fun t => (t.c, t.f, t.pc, t.ticks)) = some (0x00#8, 0x00#8, 0x0012#16, 8#64) := by decide

/-- R151's worked example in the mode `through_carry`. -/
theorem test_rrca : (after (placed 5#16 [0x0F#8] { State.reset with a := 0x01#8 })).map
    (fun t => (t.a, t.f, t.pc, t.ticks)) = some (0x00#8, 0x10#8, 6#16, 4#64) := by decide

/-- R123's worked example in the mode `circular`. -/
theorem test_rr8_circular : rr8 .circular 0x01#8 ⟨false, false, false, false⟩ =
    (0x80#8, ⟨false, false, false, true⟩) := by decide

/-- 95_test_vectors.md 2.8: the wrap on the error path; the mark names the byte and its address. -/
theorem test_unmapped_wrap : (after (placed 0xFFFF#16 [0x76#8] State.reset)).map
    (fun t => (t.pc, t.ticks, t.faultMark)) =
    some (0x0000#16, 0#64, some (.unmappedOpcode 0x76#8 0xFFFF#16)) := by decide

/-- R163, R168: a further step follows R100 and keeps the mark. -/
theorem test_step_after_error :
    (after { placed 0#16 [0x04#8] State.reset with faultMark := some (.unmappedOpcode 0x10#8 0xFFFF#16) }).map
      (fun t => (t.b, t.faultMark)) = some (0x01#8, some (.unmappedOpcode 0x10#8 0xFFFF#16)) := by decide

/-- R193: a step before `initialize()` is refused. -/
theorem test_step_uninitialised : step (beforeInit []) = .refused .notInitialized := rfl

/-- R193: a second `initialize()` is refused. -/
theorem test_second_init : hostInit State.reset = .refused .alreadyInitialized := rfl

/-- R177, R38: the first one keeps the memory that the front-end placed. -/
theorem test_first_init : hostInit (beforeInit [(3, 0x10#8)]) = .next { State.reset with mem := [(3, 0x10#8)] } := rfl

/-- R177: what `step()` hands back for an unmapped opcode (S11). -/
theorem test_frontStep_error : raised (placed 0#16 [0x10#8] State.reset) = some (.unmappedOpcode 0x10#8 0#16) := by decide

/-- R176: the inspection port. -/
theorem test_inspect : (inspect { State.reset with d := 0x0D#8, ticks := 7#64 }).d = 0x0D#8 := by decide

/-- R68: the five transactions of opcode 0x08, low byte written first. -/
theorem test_transactions : transactions (placed 0#16 [0x08#8, 0x34#8, 0x12#8] { State.reset with sp := 0xABCD#16 }) =
    [.read 0#16 0x08#8, .read 1#16 0x34#8, .read 2#16 0x12#8, .write 0x1234#16 0xCD#8, .write 0x1235#16 0xAB#8] := by
  decide

/-- R25: a write through AF keeps the low nibble of F zero. -/
theorem test_af : getPair .af (setPair .af 0x12FF#16 State.reset) = 0x12F0#16 := by decide

/-- The row's placing of an opcode-table word. -/
theorem test_withFetchWord : (after (State.reset.withFetchWord 16 0x7F06)).map (fun t => (t.b, t.pc)) =
    some (0x7F#8, 2#16) := by decide

/-! ### Witnesses: a state and operands that meet every hypothesis of a statement together -/

/-- `DecodeAndEncodeAgree`: both sides. -/
theorem witness_decode_and_encode :
    Instr.wellFormed (.ldIA16Sp 0xFFFF#16) = true ∧ decode [0x08#8, 0xFF#8, 0xFF#8, 0x00#8] = .ok (.ldIA16Sp 0xFFFF#16, [0x00#8]) ∧
    [0x08#8, 0xFF#8, 0xFF#8, 0x00#8] = encode (.ldIA16Sp 0xFFFF#16) ++ [0x00#8] := ⟨rfl, rfl, rfl⟩

/-- `WellFormedBytesAreOneInstruction` and `UnmappedBytesAreRejectedByName`: both sides, at the boundary opcodes. -/
theorem witness_decoding_boundaries :
    wellFormedEncoding [0x0F#8] = true ∧ decode [0x0F#8] = .ok (.rrca, []) ∧ wellFormedEncoding [0x10#8] = false ∧
    decode [0x10#8] = .error (.unmappedOpcode 0x10#8) ∧ decode [0xFF#8] = .error (.unmappedOpcode 0xFF#8) :=
  ⟨rfl, rfl, rfl, rfl, rfl⟩

/-- `StepRunsTheDecodedInstruction`, at the address wrap. -/
theorem witness_decoded_at_pc :
    (placed 0xFFFF#16 [0x06#8, 0x9A#8] State.reset).initialized = true ∧
    decode (readBytes (placed 0xFFFF#16 [0x06#8, 0x9A#8] State.reset).mem 0xFFFF#16 3) = .ok (.ldBD8 0x9A#8, [0x00#8]) :=
  ⟨rfl, rfl⟩

/-- `PlacedWordIsRunByTheNextStep`. -/
theorem witness_placed_word : State.reset.initialized = true ∧ decodeTableWord 24 0xC00008 = some (.ldIA16Sp 0xC000#16) := by
  decide

/-- A state at an unmapped opcode byte with a clear mark: `UnmappedOpcodeStepConsumesOneByte`,
`FaultMarkIsSetByUnmappedOpcodesAlone` (its unmapped side). -/
theorem witness_unmapped :
    let s := placed 0xFFFF#16 [0x10#8] State.reset
    s.initialized = true ∧ 16 ≤ (readByte s.mem s.pc).toNat ∧ s.faultMark = none ∧ (after s).isSome = true := by decide

/-- The mapped side, at the highest mapped opcode: `FaultMarkIsSetByUnmappedOpcodesAlone`,
`InitialisedStepAlwaysAnswersAState`, `StepAddsTheDeclaredTicks`, `StepAdvancesPcByTheLength`, `DAndEInfluenceNothing`,
`TicksAndMarkInfluenceNothing`, `StepIsTheReplayOfItsTransactions`, `StepHandsBackSuccessOrTheError`. -/
theorem witness_mapped :
    let s := placed 0#16 [0x0F#8] State.reset
    s.initialized = true ∧ (readByte s.mem s.pc).toNat < 16 ∧ s.faultMark = none ∧ (lookup (readByte s.mem s.pc)).isSome = true ∧
    (after s).isSome = true := by decide

/-- `FaultMarkIsKeptByEveryStep`: a marked state that steps, onto a second unmapped opcode. -/
theorem witness_marked :
    let s := { placed 1#16 [0xFF#8] State.reset with faultMark := some (.unmappedOpcode 0x10#8 0#16) }
    (after s).map (·.faultMark) = some (some (.unmappedOpcode 0x10#8 0#16)) := by decide

/-- `StepBeforeInitialisationIsRefused` and the first clause of `InitialisationHappensOnce`. -/
theorem witness_uninitialised : (beforeInit []).initialized = false := rfl

/-- The second clause of `InitialisationHappensOnce`. -/
theorem witness_init_answers : hostInit (beforeInit []) = .next State.reset := rfl

/-- `TicksNeverDecreaseShortOfTheWrap`, at the largest tick count it speaks of. -/
theorem witness_ticks :
    let s := { placed 0#16 [0x08#8] State.reset with ticks := BitVec.ofNat 64 (2 ^ 64 - 21) }
    s.ticks.toNat + 20 < 2 ^ 64 ∧ (after s).isSome = true := by decide

/-- `EveryStepKeepsTheInvariant`: a state with memory and a mark that meets the invariant and steps. -/
theorem witness_invariant :
    let s := { placed 0#16 [0x02#8] State.reset with
      a := 0x5A#8, f := 0xF0#8, faultMark := some (.unmappedOpcode 0xCB#8 0#16) }
    Inv s ∧ (after s).isSome = true := by
  refine ⟨⟨rfl, rfl, rfl, ?_⟩, by decide⟩
  intro op addr h
  cases h
  decide

/-- `SpAndDAndENeverChange`, and `UnmarkedRunIsTheMachinesRun` on both sides: a run of two steps that ends unmarked. -/
theorem witness_run :
    let s := placed 0#16 [0x04#8, 0x0C#8] { State.reset with sp := 0xBEEF#16, d := 0x0D#8, e := 0x0E#8 }
    (match core.run 2 s with | .next t => decide (t.b = 0x01#8 ∧ t.c = 0x01#8 ∧ t.faultMark = none) | _ => false) = true ∧
    (match runToEnd 2 s with | .next t => decide (t.faultMark = none) | _ => false) = true := ⟨rfl, rfl⟩

/-- `ErrorOfARunIsRecomputable`: an unmarked state whose run ends at an unmapped opcode. -/
theorem witness_error_run :
    let s := placed 0#16 [0x04#8, 0x10#8] State.reset
    s.faultMark = none ∧
    (match runToEnd 5 s with
      | .next t => decide (t.faultMark = some (.unmappedOpcode 0x10#8 1#16) ∧ t.pc = 2#16)
      | _ => false) = true := ⟨rfl, rfl⟩

/-- `MemoriesThatReadAlikeAreEqual`: two memories in canonical form, equal for reading because they are equal. -/
theorem witness_memories :
    Memory.wf (writeByte (writeByte [] 0xFFFF#16 0x01#8) 0x0000#16 0x02#8) = true ∧
    writeByte (writeByte [] 0xFFFF#16 0x01#8) 0x0000#16 0x02#8 =
      writeByte (writeByte [] 0x0000#16 0x02#8) 0xFFFF#16 0x01#8 := by decide

/-- `WordsAreLittleEndianAtEveryAddress`, last clause, at the wrap: an address outside the word. -/
theorem witness_outside_word : (0x0001#16 : Word) ≠ 0xFFFF#16 ∧ (0x0001#16 : Word) ≠ 0xFFFF#16 + 1 := by decide

/-- `StoredOpcodeIsSeenByTheNextFetch`, with a stored byte that is mapped. -/
theorem witness_self_modifying_mapped :
    let s := placed 0#16 [0x02#8, 0xFF#8] { State.reset with a := 0x0F#8, c := 0x01#8 }
    (after s).isSome = true ∧ readByte s.mem s.pc = 0x02#8 ∧ cat s.b s.c = s.pc + 1 ∧ (lookup s.a).isSome = true := by decide

/-- `StoredOpcodeIsSeenByTheNextFetch`, with a stored byte that is unmapped, at the address wrap. -/
theorem witness_self_modifying_unmapped :
    let s := placed 0xFFFF#16 [0x02#8] { State.reset with a := 0x10#8 }
    (after s).isSome = true ∧ readByte s.mem s.pc = 0x02#8 ∧ cat s.b s.c = s.pc + 1 ∧ 16 ≤ s.a.toNat := by decide

/-- `NopChangesPcAndTicksAlone`, `RlcaRotatesLeftThroughCarry`, `AddHlBcAddsThePairs`: states at those opcode bytes. -/
theorem witness_at_opcode :
    State.reset.initialized = true ∧ readByte State.reset.mem State.reset.pc = 0x00#8 ∧
    readByte (placed 0#16 [0x07#8] State.reset).mem 0#16 = 0x07#8 ∧
    readByte (placed 0#16 [0x09#8] State.reset).mem 0#16 = 0x09#8 := by decide

/-- `AluFunctionsReadOnlyTheFlagsTheyUse`: flags that differ and agree on C, and on Z. -/
theorem witness_alu_flags :
    (⟨true, false, true, true⟩ : Flags).c = (⟨false, true, false, true⟩ : Flags).c ∧
    (⟨true, false, true, true⟩ : Flags).z = (⟨true, true, false, false⟩ : Flags).z := ⟨rfl, rfl⟩

end Sys2Proof.Tests
end

section
/-! The state's rules (spec/10_state.md): what every step of the machine keeps, how far it moves PC and TICKS, what it
does not depend on, the values after reset, and the register pairs as views. -/

namespace Sys2Proof.Proofs

open Sys2Proof.Machine Sys2Proof.Laws

/-! ### The descriptor table -/

/-- R198: the descriptor table, read as lengths and tick costs, is the timing table. -/
theorem lookup_map_length_ticks (op : Byte) :
    (lookup op).map (fun d => (d.length, d.ticks)) = timingTable op.toNat := by
  revert op
  decide

theorem timingTable_of_lookup_eq_some {op : Byte} {d : Descriptor} (h : lookup op = some d) :
    timingTable op.toNat = some (d.length, d.ticks) := by
  rw [← lookup_map_length_ticks, h, Option.map_some]

theorem timingTable_of_lookup_eq_none {op : Byte} (h : lookup op = none) : timingTable op.toNat = none := by
  rw [← lookup_map_length_ticks, h, Option.map_none]

/-- R80: no instruction is empty, so the opcode byte is counted in its length. -/
theorem one_le_descriptor_length (d : Descriptor) : 1 ≤ d.length := by
  unfold Descriptor.length
  cases d.format <;> decide

/-- R198: the dearest instruction costs 20 ticks. -/
theorem lookup_ticks_le {op : Byte} {d : Descriptor} (h : lookup op = some d) : d.ticks ≤ 20 := by
  have hall : ∀ op : Byte, (lookup op).all (fun d => decide (d.ticks ≤ 20)) = true := by decide
  simpa [h] using hall op

/-! ### A step, given what it fetches

`step_cases` takes a step apart; these two put one together. -/

/-- R161: the step of an initialised engine on an opcode byte without a descriptor. -/
theorem step_of_lookup_eq_none {s : State} (hi : s.initialized = true)
    (hl : lookup (readByte s.mem s.pc) = none) :
    step s = .next (raiseUnmappedOpcode (readByte s.mem s.pc) (advancePc 1 s)) := by
  rw [step, if_pos hi, engineStep, fetch_unmapped hl]

/-- R100: the step of an initialised engine on an opcode byte with a descriptor. -/
theorem step_of_lookup_eq_some {s u : State} {d : Descriptor} (hi : s.initialized = true)
    (hl : lookup (readByte s.mem s.pc) = some d)
    (hu : exec (d.operation (immediate (readBytes s.mem (s.pc + 1) (d.length - 1))))
      (advancePc (d.length - 1) (advancePc 1 s)) = .next u) :
    step s = .next (addTicks d.ticks u) := by
  rw [step, if_pos hi, engineStep, fetch_mapped hl]
  simp only [hu, thenTicks]

/-! ### The invariant of a running machine -/

/-- R162: raising UnmappedOpcode for a byte without a descriptor leaves a true mark, whether the mark was clear (it
then names that byte) or set (it is then kept). -/
theorem markNamesUnmapped_raiseUnmappedOpcode {op : Byte} {s : State} (hop : 16 ≤ op.toNat)
    (hm : MarkNamesUnmapped s) : MarkNamesUnmapped (raiseUnmappedOpcode op s) := by
  intro op' addr h
  rw [raiseUnmappedOpcode_faultMark] at h
  cases hs : s.faultMark with
  | none =>
    rw [hs, Option.none_or] at h
    cases h
    exact hop
  | some e =>
    rw [hs, Option.some_or] at h
    exact hm op' addr (hs.trans h)

theorem inv_raiseUnmappedOpcode {op : Byte} {s : State} (hop : 16 ≤ op.toNat) (h : Inv s) :
    Inv (raiseUnmappedOpcode op s) :=
  ⟨h.initialized, h.nibble, h.memory, markNamesUnmapped_raiseUnmappedOpcode hop h.mark⟩

theorem inv_advancePc (n : Nat) {s : State} (h : Inv s) : Inv (advancePc n s) :=
  ⟨h.initialized, h.nibble, h.memory, h.mark⟩

theorem inv_addTicks (n : Nat) {s : State} (h : Inv s) : Inv (addTicks n s) :=
  ⟨h.initialized, h.nibble, h.memory, h.mark⟩

/-- Every operation keeps memory in canonical form: it writes no byte, one byte or one word (R59). -/
theorem exec_wf_mem {i : Instr} {s t : State} (he : exec i s = .next t) (h : Memory.wf s.mem = true) :
    Memory.wf t.mem = true := by
  obtain hm | ⟨-, hm⟩ | ⟨a16, -, hm⟩ := exec_mem he
  · rw [hm]; exact h
  · rw [hm]; exact wf_writeByte _ _ _ h
  · rw [hm]; exact wf_writeWord _ _ _ h

theorem inv_exec {i : Instr} {s t : State} (he : exec i s = .next t) (h : Inv s) : Inv t := by
  obtain ⟨-, -, -, -, -, hinit, hmark⟩ := exec_keeps he
  refine ⟨hinit.trans h.initialized, (exec_lowNibble he).trans h.nibble, exec_wf_mem he h.memory, ?_⟩
  intro op addr ht
  exact h.mark op addr (hmark.symm.trans ht)

/-- Settles O16: an UnmappedOpcode step sets at most a true mark, and the parts of every other step (the advance of PC,
the operation, the ticks) keep the invariant one by one. -/
theorem everyStepKeepsTheInvariant : Obligations.EveryStepKeepsTheInvariant := by
  intro s t hs h
  obtain ⟨-, ⟨hl, rfl⟩ | ⟨d, u, -, hu, rfl⟩⟩ := step_cases h
  · exact inv_raiseUnmappedOpcode ((lookup_eq_none_iff _).mp hl) (inv_advancePc 1 hs)
  · exact inv_addTicks _ (inv_exec hu (inv_advancePc _ (inv_advancePc 1 hs)))

/-- Settles O17. -/
theorem resetMeetsTheInvariant : Obligations.ResetMeetsTheInvariant := by
  refine ⟨⟨rfl, rfl, wf_reset, ?_⟩, rfl⟩
  intro op addr h
  cases h

/-- Settles O18. -/
theorem resetValuesAreZero : Obligations.ResetValuesAreZero := by
  refine ⟨fun r => ?_, rfl, rfl, rfl, rfl, rfl⟩
  cases r <;> rfl

/-! ### SP, D and E -/

/-- R23, R28: one step keeps SP, D and E. -/
theorem step_sp_d_e {s t : State} (h : step s = .next t) : t.sp = s.sp ∧ t.d = s.d ∧ t.e = s.e := by
  obtain ⟨-, ⟨-, rfl⟩ | ⟨d, u, -, hu, rfl⟩⟩ := step_cases h
  · exact ⟨rfl, rfl, rfl⟩
  · obtain ⟨hsp, -, -, hd, he, -, -⟩ := exec_keeps hu
    exact ⟨hsp, hd, he⟩

/-- Settles O19, by induction on the number of steps. -/
theorem spAndDAndENeverChange : Obligations.SpAndDAndENeverChange := by
  intro k
  induction k with
  | zero =>
    intro s t h
    cases h
    exact ⟨rfl, rfl, rfl⟩
  | succ k ih =>
    intro s t h
    obtain ⟨u, hstep, hrun⟩ := run_succ_eq_next h
    obtain ⟨hsp, hd, he⟩ := step_sp_d_e hstep
    obtain ⟨hsp', hd', he'⟩ := ih u t hrun
    exact ⟨hsp'.trans hsp, hd'.trans hd, he'.trans he⟩

/-- A state with other values in D and E. -/
def withDE (x y : Byte) (s : State) : State := { s with d := x, e := y }

/-- R23: no operation reads or writes D or E. -/
theorem exec_withDE (x y : Byte) {i : Instr} {s t : State} (h : exec i s = .next t) :
    exec i (withDE x y s) = .next (withDE x y t) := by
  cases i <;> cases h <;> rfl

/-- Settles O20: the step fetches the same bytes and runs the same operation, and each part of it commutes with
putting other values into D and E. -/
theorem dAndEInfluenceNothing : Obligations.DAndEInfluenceNothing := by
  intro s t x y h
  change step (withDE x y s) = .next (withDE x y t)
  obtain ⟨hi, ⟨hl, rfl⟩ | ⟨d, u, hl, hu, rfl⟩⟩ := step_cases h
  · exact step_of_lookup_eq_none (s := withDE x y s) hi hl
  · exact step_of_lookup_eq_some (s := withDE x y s) hi hl (exec_withDE x y hu)

/-! ### PC and TICKS -/

/-- R104: moving past the opcode byte and then past the operand bytes is moving past the instruction. -/
theorem advancePc_opcode_operands_pc (d : Descriptor) (s : State) :
    (advancePc (d.length - 1) (advancePc 1 s)).pc = s.pc + BitVec.ofNat 16 d.length := by
  have hlen : 1 + (d.length - 1) = d.length := Nat.add_sub_cancel' (one_le_descriptor_length d)
  rw [advancePc_pc, advancePc_pc, BitVec.add_assoc, ← BitVec.ofNat_add, hlen]

/-- Settles O14. -/
theorem stepAdvancesPcByTheLength : Obligations.StepAdvancesPcByTheLength := by
  intro s t h
  obtain ⟨-, ⟨hl, rfl⟩ | ⟨d, u, hl, hu, rfl⟩⟩ := step_cases h
  · rw [timingTable_of_lookup_eq_none hl]
    rfl
  · obtain ⟨-, hpc, -⟩ := exec_keeps hu
    rw [timingTable_of_lookup_eq_some hl, addTicks_pc, hpc, advancePc_opcode_operands_pc]
    rfl

/-- R106: a step adds a cost of at most 20 to TICKS (none where it raises UnmappedOpcode). -/
theorem step_ticks {s t : State} (h : step s = .next t) :
    ∃ n, n ≤ 20 ∧ t.ticks = s.ticks + BitVec.ofNat 64 n := by
  obtain ⟨-, ⟨-, rfl⟩ | ⟨d, u, hl, hu, rfl⟩⟩ := step_cases h
  · exact ⟨0, Nat.zero_le _, (BitVec.add_zero s.ticks).symm⟩
  · obtain ⟨-, -, hticks, -⟩ := exec_keeps hu
    refine ⟨d.ticks, lookup_ticks_le hl, ?_⟩
    rw [addTicks_ticks, hticks]
    rfl

/-- Settles O15: adding at most 20 to a count more than 20 below 2^64 does not wrap. -/
theorem ticksNeverDecreaseShortOfTheWrap : Obligations.TicksNeverDecreaseShortOfTheWrap := by
  intro s t h hnowrap
  obtain ⟨n, hn, ht⟩ := step_ticks h
  have hsum : t.ticks.toNat = s.ticks.toNat + n := by
    rw [ht, BitVec.toNat_add, BitVec.toNat_ofNat]
    omega
  omega

/-! ### Register pairs -/

/-- R25: the mask on a write of F, seen through the word that AF composes. -/
theorem cat_and_0xF0 (h l : Byte) : cat h (l &&& 0xF0#8) = cat h l &&& 0xFFF0#16 := by
  have hmask : (0xFFF0#16 : Word) = BitVec.allOnes 8 ++ 0xF0#8 := by decide
  rw [cat, cat, hmask, BitVec.and_append, BitVec.and_allOnes]

theorem getPair_setPair_self (p : Pair) (v : Word) (s : State) :
    getPair p (setPair p v s) = if p = .af then v &&& 0xFFF0#16 else v := by
  cases p with
  | bc => simp
  | de => simp
  | hl => simp
  | af => simp [cat_and_0xF0]

/-- R25: a write of a pair is two register writes, so every other register is as it was. -/
theorem sameRegsExcept_setPair (p : Pair) (v : Word) (s : State) :
    SameRegsExcept [p.high, p.low] s (setPair p v s) := by
  intro q hq
  have hhigh : q ≠ p.high := fun h => hq (by simp [h])
  have hlow : q ≠ p.low := fun h => hq (by simp [h])
  rw [setPair, get8_set8_ne _ _ _ _ hlow, get8_set8_ne _ _ _ _ hhigh]

theorem sameControl_setPair (p : Pair) (v : Word) (s : State) : SameControl s (setPair p v s) :=
  ⟨setPair_sp p v s, setPair_pc p v s, setPair_ticks p v s, setPair_initialized p v s, setPair_faultMark p v s⟩

/-- Settles O29. -/
theorem pairsAreViewsOfTheirTwoRegisters : Obligations.PairsAreViewsOfTheirTwoRegisters := fun p v s =>
  ⟨getPair_setPair_self p v s, sameRegsExcept_setPair p v s, sameControl_setPair p v s, setPair_mem p v s⟩

end Sys2Proof.Proofs
end

section
/-! Memory and the bus (spec/20_memory.md): words in a byte memory, that a memory is what it answers, the ordered bus
transactions of a step, and a store onto the next instruction. -/

namespace Sys2Proof.Proofs

open Sys2Proof.Machine Sys2Proof.Laws

/-! ### Words -/

/-- R53, D7: the two bytes of a word stand at different addresses, at the wrap too. -/
theorem address_ne_next (a : Word) : a ≠ a + 1 := by
  bv_omega

/-- Settles O24: of the two byte writes of a word write, the second does not touch the first one's address. -/
theorem wordsAreLittleEndianAtEveryAddress : Obligations.WordsAreLittleEndianAtEveryAddress := by
  intro m a v
  have hlow : readByte (writeWord m a v) a = loByte v := by
    rw [readByte_writeWord, if_neg (address_ne_next a), if_pos rfl]
  have hhigh : readByte (writeWord m a v) (a + 1) = hiByte v := by
    rw [readByte_writeWord, if_pos rfl]
  refine ⟨?_, hlow, hhigh, fun b hb hb' => ?_⟩
  · rw [readWord, hlow, hhigh, cat_hiByte_loByte]
  · rw [readByte_writeWord, if_neg hb', if_neg hb]

/-! ### A memory in canonical form is what it answers -/

theorem wfFrom_cons_iff (lo k : Nat) (v : Byte) (m : Memory) :
    Memory.wfFrom lo ((k, v) :: m) = true ↔
      lo ≤ k ∧ k < 65536 ∧ v ≠ unlistedByte ∧ Memory.wfFrom (k + 1) m = true := by
  simp only [Memory.wfFrom, Bool.and_eq_true, decide_eq_true_eq, and_assoc]

@[simp] theorem readCell_cons_self (k : Nat) (v : Byte) (m : Memory) : readCell ((k, v) :: m) k = v := by
  simp [readCell]

theorem readCell_cons_ne {k a : Nat} (v : Byte) (m : Memory) (h : k ≠ a) :
    readCell ((k, v) :: m) a = readCell m a := by
  simp [readCell, h]

/-- A canonical memory lists no address outside its bounds: below `lo`, or from 2^16 up. -/
theorem readCell_eq_unlistedByte {lo a : Nat} {m : Memory} (hm : Memory.wfFrom lo m = true)
    (ha : a < lo ∨ 65536 ≤ a) : readCell m a = unlistedByte := by
  induction m generalizing lo with
  | nil => rfl
  | cons c m ih =>
    obtain ⟨k, v⟩ := c
    obtain ⟨hlo, hk, -, htail⟩ := (wfFrom_cons_iff lo k v m).mp hm
    rw [readCell_cons_ne v m (by omega)]
    exact ih htail (by omega)

/-- Nothing is listed below the head of a canonical memory. -/
theorem head_address_le {lo k a : Nat} {v : Byte} {m : Memory} (hm : Memory.wfFrom lo ((k, v) :: m) = true)
    (ha : readCell ((k, v) :: m) a ≠ unlistedByte) : k ≤ a := by
  obtain ⟨-, hk, hv, htail⟩ := (wfFrom_cons_iff lo k v m).mp hm
  have hfrom : Memory.wfFrom k ((k, v) :: m) = true := (wfFrom_cons_iff k k v m).mpr ⟨le_refl k, hk, hv, htail⟩
  by_contra hlt
  exact ha (readCell_eq_unlistedByte hfrom (.inl (Nat.lt_of_not_le hlt)))

/-- Two canonical lists of cells that read alike at every address are equal: their heads are at the same lowest address
and hold the same byte, and their tails read alike. -/
theorem eq_of_readCell_eq {lo lo' : Nat} {m m' : Memory} (hm : Memory.wfFrom lo m = true)
    (hm' : Memory.wfFrom lo' m' = true) (hread : ∀ a, readCell m a = readCell m' a) : m = m' := by
  induction m generalizing lo lo' m' with
  | nil =>
    cases m' with
    | nil => rfl
    | cons c' m' =>
      obtain ⟨k', v'⟩ := c'
      obtain ⟨-, -, hv', -⟩ := (wfFrom_cons_iff lo' k' v' m').mp hm'
      exact absurd ((hread k').trans (readCell_cons_self k' v' m')).symm hv'
  | cons c m ih =>
    obtain ⟨k, v⟩ := c
    obtain ⟨-, -, hv, htail⟩ := (wfFrom_cons_iff lo k v m).mp hm
    cases m' with
    | nil => exact absurd ((readCell_cons_self k v m).symm.trans (hread k)) hv
    | cons c' m' =>
      obtain ⟨k', v'⟩ := c'
      obtain ⟨-, -, hv', htail'⟩ := (wfFrom_cons_iff lo' k' v' m').mp hm'
      have hle : k ≤ k' := head_address_le hm (by rwa [hread, readCell_cons_self])
      have hge : k' ≤ k := head_address_le hm' (by rwa [← hread, readCell_cons_self])
      obtain rfl : k = k' := le_antisymm hle hge
      obtain rfl : v = v' := by simpa using hread k
      have htails : ∀ a, readCell m a = readCell m' a := by
        intro a
        by_cases hka : k = a
        · have ha : a < k + 1 := by omega
          rw [readCell_eq_unlistedByte htail (.inl ha), readCell_eq_unlistedByte htail' (.inl ha)]
        · simpa only [readCell_cons_ne v _ hka] using hread a
      rw [ih htail htail' htails]

/-- Settles O25: the byte reads reach every address below 2^16, and a canonical memory lists no other. -/
theorem memoriesThatReadAlikeAreEqual : Obligations.MemoriesThatReadAlikeAreEqual := by
  intro m m' hm hm' hread
  refine eq_of_readCell_eq hm hm' fun a => ?_
  by_cases ha : a < 65536
  · have hcell := hread (BitVec.ofNat 16 a)
    rwa [readByte, readByte, BitVec.toNat_ofNat, Nat.mod_eq_of_lt ha] at hcell
  · rw [readCell_eq_unlistedByte hm (.inr (by omega)), readCell_eq_unlistedByte hm' (.inr (by omega))]

/-! ### The transactions of a step -/

/-- R102: where the lookup fails, the opcode byte is the only byte fetched. -/
theorem fetchReads_of_lookup_eq_none {s : State} (h : lookup (readByte s.mem s.pc) = none) :
    fetchReads s = readOps s.mem s.pc 1 := by
  simp only [fetchReads, h]

/-- R68: the instruction-side reads are as many as the instruction has bytes. -/
theorem fetchReads_of_lookup_eq_some {s : State} {d : Descriptor} (h : lookup (readByte s.mem s.pc) = some d) :
    fetchReads s = readOps s.mem s.pc d.length := by
  simp only [fetchReads, h]

/-- R160, R161: a step that raises UnmappedOpcode reads the opcode byte and nothing else. -/
theorem transactions_of_lookup_eq_none {s : State} (h : lookup (readByte s.mem s.pc) = none) :
    transactions s = readOps s.mem s.pc 1 := by
  simp only [transactions, fetch_unmapped h, fetchReads_of_lookup_eq_none h]

/-- R68: the bytes of the instruction are read, then its data is accessed. -/
theorem transactions_of_lookup_eq_some {s : State} {d : Descriptor} (h : lookup (readByte s.mem s.pc) = some d) :
    transactions s = readOps s.mem s.pc d.length ++
      dataAccess (d.operation (immediate (readBytes s.mem (s.pc + 1) (d.length - 1))))
        (advancePc (d.length - 1) (advancePc 1 s)) := by
  simp only [transactions, fetch_mapped h, fetchReads_of_lookup_eq_some h]

/-! ### Replaying transactions -/

/-- Replaying two lists of transactions is replaying the one, then the other from the memory it leaves. -/
theorem replay_append {m m' : Memory} {ops : List BusOp} (ops' : List BusOp) (h : replay m ops = some m') :
    replay m (ops ++ ops') = replay m' ops' := by
  induction ops generalizing m with
  | nil =>
    cases h
    rfl
  | cons op ops ih =>
    cases op with
    | read a v =>
      simp only [replay] at h
      split at h
      · next hv =>
        simp only [List.cons_append, replay, if_pos hv]
        exact ih h
      · cases h
    | write a v => exact ih h

/-- Reads are answered by the memory they were listed from, and leave it as it is (R51). -/
@[simp] theorem replay_readOps (m : Memory) (a : Word) (n : Nat) : replay m (readOps m a n) = some m := by
  induction n generalizing a with
  | zero => rfl
  | succ n ih => simp only [readOps, replay, if_true, ih]

/-- R59: the data access listed for an instruction has the memory effect of its operation. -/
theorem replay_dataAccess {i : Instr} {s t : State} (h : exec i s = .next t) :
    replay s.mem (dataAccess i s) = some t.mem := by
  cases i with
  | ldAIBc =>
    cases h
    exact if_pos rfl
  | ldIBcA => cases h; rfl
  | ldIA16Sp => cases h; rfl
  | nop => cases h; rfl
  | ldBcD16 => cases h; rfl
  | incBc => cases h; rfl
  | incB => cases h; rfl
  | decB => cases h; rfl
  | ldBD8 => cases h; rfl
  | rlca => cases h; rfl
  | addHlBc => cases h; rfl
  | decBc => cases h; rfl
  | incC => cases h; rfl
  | decC => cases h; rfl
  | ldCD8 => cases h; rfl
  | rrca => cases h; rfl

/-- Settles O26: the instruction-side reads leave memory as it is, and the data access has the operation's effect. -/
theorem stepIsTheReplayOfItsTransactions : Obligations.StepIsTheReplayOfItsTransactions := by
  intro s t h
  obtain ⟨-, ⟨hl, rfl⟩ | ⟨d, u, hl, hu, rfl⟩⟩ := step_cases h
  · rw [transactions_of_lookup_eq_none hl, replay_readOps, raiseUnmappedOpcode_mem, advancePc_mem]
  · rw [transactions_of_lookup_eq_some hl, replay_append _ (replay_readOps _ _ _), addTicks_mem]
    have hdata := replay_dataAccess hu
    rwa [advancePc_mem, advancePc_mem] at hdata

/-! ### Counting transactions -/

@[simp] theorem readOps_length (m : Memory) (a : Word) (n : Nat) : (readOps m a n).length = n := by
  induction n generalizing a with
  | zero => rfl
  | succ n ih => rw [readOps, List.length_cons, ih]

theorem readOps_append_head? {n : Nat} (hn : 1 ≤ n) (m : Memory) (a : Word) (ops : List BusOp) :
    (readOps m a n ++ ops).head? = some (.read a (readByte m a)) := by
  cases n with
  | zero => omega
  | succ n => rfl

/-- R68: no opcode byte without a descriptor has a row of its own in the table; the opcode read is counted. -/
theorem transactionTable_of_lookup_eq_none {op : Byte} (h : lookup op = none) : transactionTable op.toNat = 1 := by
  revert op
  decide

/-- R68: an instruction's bytes and data accesses are as many as the table says, whatever the operands and the state. -/
theorem transactionTable_of_lookup_eq_some {op : Byte} {d : Descriptor} (h : lookup op = some d) (imm16 : Word)
    (s : State) : d.length + (dataAccess (d.operation imm16) s).length = transactionTable op.toNat := by
  have hop : op.toNat < 16 := by simpa [h] using lookup_isSome_iff op
  obtain rfl | rfl | rfl | rfl | rfl | rfl | rfl | rfl | rfl | rfl | rfl | rfl | rfl | rfl | rfl | rfl :=
    opcode_cases hop <;> cases h <;> rfl

/-- Settles O27: the instruction-side reads begin with the opcode's and are counted apart from the data access. -/
theorem stepIssuesTheTabulatedTransactions : Obligations.StepIssuesTheTabulatedTransactions := by
  intro s
  cases hl : lookup (readByte s.mem s.pc) with
  | none =>
    rw [transactions_of_lookup_eq_none hl, readOps_length, transactionTable_of_lookup_eq_none hl]
    exact ⟨rfl, rfl⟩
  | some d =>
    rw [transactions_of_lookup_eq_some hl, List.length_append, readOps_length]
    exact ⟨transactionTable_of_lookup_eq_some hl _ _, readOps_append_head? (one_le_descriptor_length d) _ _ _⟩

/-! ### A store onto the next instruction -/

/-- R162: PC has moved one past the opcode byte, so the error names the address it was fetched from. -/
theorem unmappedFault_advancePc_one (op : Byte) (s : State) :
    unmappedFault op (advancePc 1 s) = .unmappedOpcode op s.pc := by
  rw [unmappedFault, advancePc_pc]
  exact congrArg (Fault.unmappedOpcode op) (BitVec.add_sub_cancel s.pc 1)

theorem raised_of_lookup_eq_none {s : State} (h : lookup (readByte s.mem s.pc) = none) :
    raised s = some (.unmappedOpcode (readByte s.mem s.pc) s.pc) := by
  simp only [raised, fetch_unmapped h, unmappedFault_advancePc_one]

theorem raised_of_lookup_eq_some {s : State} {d : Descriptor} (h : lookup (readByte s.mem s.pc) = some d) :
    raised s = none := by
  simp only [raised, fetch_mapped h]

/-- R106, R164: an initialised engine steps from every opcode byte with a descriptor, and adds that descriptor's ticks. -/
theorem exists_step_adding_ticks {s : State} {d : Descriptor} (hi : s.initialized = true)
    (hl : lookup (readByte s.mem s.pc) = some d) :
    ∃ u, step s = .next u ∧ u.ticks = s.ticks + BitVec.ofNat 64 d.ticks := by
  obtain ⟨u, hu⟩ := exec_eq_next (d.operation (immediate (readBytes s.mem (s.pc + 1) (d.length - 1))))
    (advancePc (d.length - 1) (advancePc 1 s))
  obtain ⟨-, -, hticks, -⟩ := exec_keeps hu
  refine ⟨addTicks d.ticks u, step_of_lookup_eq_some hi hl hu, ?_⟩
  rw [addTicks_ticks, hticks, advancePc_ticks, advancePc_ticks]

/-- R131: the step on LD (BC),A writes A at BC and moves PC past its one byte. -/
theorem step_on_ldIBcA {s t : State} (h : step s = .next t) (hop : readByte s.mem s.pc = 0x02#8) :
    t.mem = writeByte s.mem (cat s.b s.c) s.a ∧ t.pc = s.pc + 1 ∧ t.initialized = true := by
  obtain ⟨hi, ⟨hl, -⟩ | ⟨d, u, hl, hu, rfl⟩⟩ := step_cases h
  · rw [hop] at hl
    cases hl
  · rw [hop] at hl
    cases hl
    cases hu
    exact ⟨rfl, BitVec.add_zero _, hi⟩

/-- Settles O28: the store is in memory before the next fetch, which reads it back at PC. -/
theorem storedOpcodeIsSeenByTheNextFetch : Obligations.StoredOpcodeIsSeenByTheNextFetch := by
  intro s t h hop hbc
  obtain ⟨hmem, hpc, hi⟩ := step_on_ldIBcA h hop
  have hread : readByte t.mem t.pc = s.a := by
    rw [hmem, hpc, hbc, readByte_writeByte_self]
  refine ⟨hread, fun hunmapped => ?_, fun d hl => ?_⟩
  · have hl : lookup (readByte t.mem t.pc) = none := by rwa [hread, lookup_eq_none_iff]
    rw [raised_of_lookup_eq_none hl, hread]
  · rw [← hread] at hl
    exact ⟨raised_of_lookup_eq_some hl, exists_step_adding_ticks hi hl⟩

end Sys2Proof.Proofs
end

section
/-! The encoding (spec/30_encoding.md): what the decoder answers, that it and the encoder are inverse to one another,
the well-formedness check, and an opcode-table word placed at PC. -/

namespace Sys2Proof.Proofs

open Sys2Proof.Machine Sys2Proof.Laws

/-! ### What the decoder answers -/

/-- R88, R90: an opcode byte without a descriptor is rejected, whatever follows it. -/
theorem decode_of_lookup_eq_none {op : Byte} (h : lookup op = none) (rest : List Byte) :
    decode (op :: rest) = .error (.unmappedOpcode op) := by
  simp only [decode, h]

theorem decode_of_lookup_eq_some {op : Byte} {d : Descriptor} (h : lookup op = some d) (rest : List Byte) :
    decode (op :: rest) = if rest.length < d.length - 1 then .error .truncated
      else .ok (d.operation (immediate (rest.take (d.length - 1))), rest.drop (d.length - 1)) := by
  simp only [decode, h]

/-- R80, R84: the decoder reads an instruction exactly where an opcode byte with a descriptor stands before as many
operand bytes as the descriptor's length counts; the instruction is the descriptor's, on those operand bytes. -/
theorem decode_eq_ok_iff {bytes : List Byte} {i : Instr} {rest : List Byte} :
    decode bytes = .ok (i, rest) ↔
      ∃ op d operands, lookup op = some d ∧ operands.length + 1 = d.length ∧
        d.operation (immediate operands) = i ∧ bytes = op :: (operands ++ rest) := by
  constructor
  · intro h
    cases bytes with
    | nil => cases h
    | cons op tail =>
      cases hl : lookup op with
      | none =>
        rw [decode_of_lookup_eq_none hl] at h
        cases h
      | some d =>
        rw [decode_of_lookup_eq_some hl] at h
        split at h
        · cases h
        · next hlen =>
          cases h
          have hpos := one_le_descriptor_length d
          refine ⟨op, d, tail.take (d.length - 1), hl, ?_, rfl, by rw [List.take_append_drop]⟩
          rw [List.length_take]
          omega
  · rintro ⟨op, d, operands, hl, hlen, rfl, rfl⟩
    have hcount : d.length - 1 = operands.length := by omega
    rw [decode_of_lookup_eq_some hl, hcount, if_neg (by simp), List.take_left, List.drop_left]

/-- Settles O1. -/
theorem decodesWordsOfTheSpec : Obligations.DecodesWordsOfTheSpec :=
  ⟨rfl, rfl, rfl, rfl, rfl, rfl, rfl, rfl⟩

/-- Settles O4: the decoder rejects a byte by name exactly where the lookup fails; where it succeeds, a list of bytes
can at most be too short. -/
theorem unmappedBytesAreRejectedByName : Obligations.UnmappedBytesAreRejectedByName := by
  intro op rest
  rw [← lookup_eq_none_iff]
  refine ⟨fun h => ?_, fun hl => decode_of_lookup_eq_none hl rest⟩
  cases hl : lookup op with
  | none => rfl
  | some d =>
    rw [decode_of_lookup_eq_some hl] at h
    split at h <;> cases h

/-! ### The encoder against the descriptor table -/

/-- R81 to R83: the encoding of a format, with the immediate where the format has one. -/
def encodeAs (op : Byte) (imm16 : Word) : Format → List Byte
  | .o => encodeO op
  | .oi8 => encodeOI8 op (loByte imm16)
  | .oi16 => encodeOI16 op imm16

/-- R81 to R83: each row of the descriptor table is encoded by its own format, under its own opcode. -/
theorem encode_operation {op : Byte} {d : Descriptor} (h : lookup op = some d) (imm16 : Word) :
    encode (d.operation imm16) = encodeAs op imm16 d.format := by
  have hop : op.toNat < 16 := by simpa [h] using lookup_isSome_iff op
  obtain rfl | rfl | rfl | rfl | rfl | rfl | rfl | rfl | rfl | rfl | rfl | rfl | rfl | rfl | rfl | rfl :=
    opcode_cases hop <;> cases h <;> rfl

/-- R84: a format's encoding takes the immediate apart into the operand bytes that it was assembled from. -/
theorem encodeAs_immediate (op : Byte) {operands : List Byte} {fmt : Format}
    (hlen : operands.length + 1 = fmt.length) : encodeAs op (immediate operands) fmt = op :: operands := by
  cases fmt with
  | o =>
    obtain rfl := List.length_eq_zero_iff.mp (Nat.succ.inj hlen)
    rfl
  | oi8 =>
    obtain ⟨b, rfl⟩ := List.length_eq_one_iff.mp (Nat.succ.inj hlen)
    rw [immediate_one, encodeAs, encodeOI8, loByte_zext16]
  | oi16 =>
    obtain ⟨b1, b2, rfl⟩ := List.length_eq_two.mp (Nat.succ.inj hlen)
    rw [immediate_two, encodeAs, encodeOI16, loByte_cat, hiByte_cat]

/-- A descriptor's instruction is encoded as the opcode and the operand bytes that it was read from. -/
theorem encode_operation_immediate {op : Byte} {d : Descriptor} {operands : List Byte} (h : lookup op = some d)
    (hlen : operands.length + 1 = d.length) : encode (d.operation (immediate operands)) = op :: operands := by
  rw [encode_operation h, encodeAs_immediate op hlen]

/-- R86, R89: every instruction, with every operand, is what its own bytes' descriptor makes of its operand bytes. -/
theorem exists_descriptor_of_instr (i : Instr) :
    ∃ op d operands, lookup op = some d ∧ operands.length + 1 = d.length ∧
      d.operation (immediate operands) = i ∧ encode i = op :: operands := by
  cases i with
  | ldBcD16 d16 => exact ⟨_, _, _, rfl, rfl, congrArg Instr.ldBcD16 (cat_hiByte_loByte d16), rfl⟩
  | ldIA16Sp a16 => exact ⟨_, _, _, rfl, rfl, congrArg Instr.ldIA16Sp (cat_hiByte_loByte a16), rfl⟩
  | ldBD8 d8 => exact ⟨_, _, _, rfl, rfl, congrArg Instr.ldBD8 (loByte_zext16 d8), rfl⟩
  | ldCD8 d8 => exact ⟨_, _, _, rfl, rfl, congrArg Instr.ldCD8 (loByte_zext16 d8), rfl⟩
  | _ => exact ⟨_, _, _, rfl, rfl, rfl, rfl⟩

/-- What the decoder read is the encoding of its answer. -/
theorem eq_encode_append_of_decode {bytes : List Byte} {i : Instr} {rest : List Byte}
    (h : decode bytes = .ok (i, rest)) : bytes = encode i ++ rest := by
  obtain ⟨op, d, operands, hl, hlen, rfl, rfl⟩ := decode_eq_ok_iff.mp h
  rw [encode_operation_immediate hl hlen, List.cons_append]

/-- Every instruction is read back from its own bytes, whatever follows them. -/
theorem decode_encode_append (i : Instr) (rest : List Byte) : decode (encode i ++ rest) = .ok (i, rest) := by
  obtain ⟨op, d, operands, hl, hlen, hi, henc⟩ := exists_descriptor_of_instr i
  exact decode_eq_ok_iff.mpr ⟨op, d, operands, hl, hlen, hi, by rw [henc, List.cons_append]⟩

/-- R89: no value of an operand is illegal. -/
@[simp] theorem wellFormed_eq_true (i : Instr) : i.wellFormed = true := by
  cases i <;> rfl

/-- Settles O2. -/
theorem decodeAndEncodeAgree : Obligations.DecodeAndEncodeAgree := by
  intro bytes i rest
  constructor
  · rintro ⟨-, h⟩
    exact eq_encode_append_of_decode h
  · rintro rfl
    exact ⟨wellFormed_eq_true i, decode_encode_append i rest⟩

/-! ### The well-formedness check -/

/-- R81 to R83: the format lists pass an opcode byte with a descriptor and as many bytes as its length. -/
theorem wellFormedEncoding_cons_iff (op : Byte) (operands : List Byte) :
    wellFormedEncoding (op :: operands) = true ↔ ∃ d, lookup op = some d ∧ operands.length + 1 = d.length := by
  simp only [wellFormedEncoding, ← lookup_format]
  cases lookup op <;> simp [Descriptor.length]

/-- Settles O3: both sides say that the bytes are an opcode byte with a descriptor and exactly its operand bytes. -/
theorem wellFormedBytesAreOneInstruction : Obligations.WellFormedBytesAreOneInstruction := by
  intro bytes
  cases bytes with
  | nil =>
    refine ⟨fun h => ?_, fun ⟨_, h⟩ => ?_⟩ <;> cases h
  | cons op operands =>
    rw [wellFormedEncoding_cons_iff]
    constructor
    · rintro ⟨d, hl, hlen⟩
      exact ⟨_, decode_eq_ok_iff.mpr ⟨op, d, operands, hl, hlen, rfl, by rw [List.append_nil]⟩⟩
    · rintro ⟨i, h⟩
      obtain ⟨op', d, operands', hl, hlen, -, hbytes⟩ := decode_eq_ok_iff.mp h
      rw [List.append_nil] at hbytes
      cases hbytes
      exact ⟨d, hl, hlen⟩

/-! ### Bytes placed in memory are read back -/

@[simp] theorem writeBytes_cons (m : Memory) (a : Word) (b : Byte) (bs : List Byte) :
    writeBytes m a (b :: bs) = writeBytes (writeByte m a b) (a + 1) bs := rfl

@[simp] theorem readBytes_succ (m : Memory) (a : Word) (n : Nat) :
    readBytes m a (n + 1) = readByte m a :: readBytes m (a + 1) n := rfl

/-- Bytes written from `n` addresses above `a` upwards do not touch `a`, while they stay short of coming round to it. -/
theorem readByte_writeBytes_above (m : Memory) (a : Word) {n : Nat} {bs : List Byte} (hn : 1 ≤ n)
    (hround : n + bs.length ≤ 65536) : readByte (writeBytes m (a + BitVec.ofNat 16 n) bs) a = readByte m a := by
  induction bs generalizing m n with
  | nil => rfl
  | cons b bs ih =>
    rw [List.length_cons] at hround
    have hne : a ≠ a + BitVec.ofNat 16 n := by bv_omega
    have hnext : a + BitVec.ofNat 16 n + 1 = a + BitVec.ofNat 16 (n + 1) := by bv_omega
    rw [writeBytes_cons, hnext, ih _ (by omega) (by omega), readByte_writeByte_ne _ _ _ _ hne]

/-- R177: what the front-end places is what is read there, at every address, the wrap included. -/
theorem readBytes_writeBytes (m : Memory) (a : Word) {bs : List Byte} (hround : bs.length ≤ 65536) :
    readBytes (writeBytes m a bs) a bs.length = bs := by
  induction bs generalizing m a with
  | nil => rfl
  | cons b bs ih =>
    rw [List.length_cons] at hround
    have hhead : readByte (writeBytes (writeByte m a b) (a + 1) bs) a = b :=
      (readByte_writeBytes_above _ a (n := 1) (le_refl 1) (by omega)).trans (readByte_writeByte_self m a b)
    rw [List.length_cons, readBytes_succ, writeBytes_cons, hhead, ih _ _ (by omega)]

/-- R68: the first bytes of a longer read are the shorter read. -/
theorem eq_readBytes_of_append_eq {m : Memory} {a : Word} {n : Nat} {bs rest : List Byte}
    (h : readBytes m a n = bs ++ rest) : bs = readBytes m a bs.length := by
  induction bs generalizing a n with
  | nil => rfl
  | cons b bs ih =>
    cases n with
    | zero => cases h
    | succ n =>
      obtain ⟨hb, hbs⟩ := List.cons.inj h
      rw [List.length_cons, readBytes_succ, hb, ← ih hbs]

/-! ### The step on bytes that decode -/

theorem instr_length_of_encode {i : Instr} {op : Byte} {operands : List Byte} (h : encode i = op :: operands) :
    i.length = operands.length + 1 := by
  rw [Instr.length, h, List.length_cons]

theorem instr_ticks_of_encode {i : Instr} {op : Byte} {operands : List Byte} {d : Descriptor}
    (h : encode i = op :: operands) (hl : lookup op = some d) : i.ticks = d.ticks := by
  simp only [Instr.ticks, h, hl]

/-- R30: two advances of PC are one. -/
theorem advancePc_advancePc (m n : Nat) (s : State) : advancePc n (advancePc m s) = advancePc (m + n) s := by
  simp only [advancePc, BitVec.add_assoc, BitVec.ofNat_add]

/-- R100: where the bytes at PC decode, the step fetches the instruction that the decoder read, whatever number of bytes
the decoder was given. -/
theorem step_of_decode {s : State} {i : Instr} {n : Nat} {rest : List Byte} (hi : s.initialized = true)
    (h : decode (readBytes s.mem s.pc n) = .ok (i, rest)) :
    step s = thenTicks i.ticks (exec i (advancePc i.length s)) := by
  obtain ⟨op, d, operands, hl, hlen, rfl, hbytes⟩ := decode_eq_ok_iff.mp h
  have henc := encode_operation_immediate hl hlen
  have hread : op :: operands = readBytes s.mem s.pc (operands.length + 1) := eq_readBytes_of_append_eq hbytes
  obtain ⟨rfl, hoperands⟩ := List.cons.inj hread
  have hcount : d.length - 1 = operands.length := by omega
  obtain ⟨u, hu⟩ := exec_eq_next (d.operation (immediate operands)) (advancePc (operands.length + 1) s)
  rw [instr_length_of_encode henc, instr_ticks_of_encode henc hl, hu]
  refine step_of_lookup_eq_some hi hl ?_
  rw [hcount, ← hoperands, advancePc_advancePc, Nat.add_comm 1, hu]

/-- The bytes of an opcode-table row stand at PC once they are placed (log 10). -/
theorem readBytes_withFetchWord (s : State) (nbits w : Nat) :
    readBytes (s.withFetchWord nbits w).mem (s.withFetchWord nbits w).pc 3 = tableBytes nbits w :=
  readBytes_writeBytes s.mem s.pc (bs := tableBytes nbits w) (by simp [tableBytes])

theorem decodeTableWord_eq_some {nbits w : Nat} {i : Instr} (h : decodeTableWord nbits w = some i) :
    ∃ rest, decode (tableBytes nbits w) = .ok (i, rest) := by
  unfold decodeTableWord at h
  split at h
  · next j rest hd =>
    cases h
    exact ⟨rest, hd⟩
  · cases h

/-- Settles O7: the step reads back at PC the three bytes that were placed, and they decode. -/
theorem placedWordIsRunByTheNextStep : Obligations.PlacedWordIsRunByTheNextStep := by
  intro s nbits w i hi h
  obtain ⟨rest, hd⟩ := decodeTableWord_eq_some h
  rw [← readBytes_withFetchWord s nbits w] at hd
  exact step_of_decode (s := s.withFetchWord nbits w) hi hd

end Sys2Proof.Proofs
end

section
/-! The step (spec/40_step.md): the step on bytes that decode, on a one-byte encoding and on NOP, the ticks it adds, and
the run of a machine against the run that ends at the first UnmappedOpcode. -/

namespace Sys2Proof.Proofs

open Sys2Proof.Machine Sys2Proof.Laws

/-! ### The step's tick cost -/

/-- Settles O13: the step that adds the descriptor's ticks is the one that was taken, for a step has one answer. -/
theorem stepAddsTheDeclaredTicks : Obligations.StepAddsTheDeclaredTicks := by
  intro s t d h hl
  obtain ⟨hi, -⟩ := step_cases h
  obtain ⟨u, hu, hticks⟩ := exists_step_adding_ticks hi hl
  cases h.symm.trans hu
  exact hticks

/-! ### A run that ends unmarked -/

/-- R163: a set fault mark is kept by a step, and so it stays the first error (log 7). -/
theorem step_faultMark_of_eq_some {s t : State} {e : Fault} (h : step s = .next t) (he : s.faultMark = some e) :
    t.faultMark = some e := by
  obtain ⟨-, ⟨-, rfl⟩ | ⟨d, u, -, hu, rfl⟩⟩ := step_cases h
  · rw [raiseUnmappedOpcode_faultMark, advancePc_faultMark, he, Option.some_or]
  · obtain ⟨-, -, -, -, -, -, hmark⟩ := exec_keeps hu
    exact hmark.trans he

theorem run_succ_eq_next_iff {k : Nat} {s t : State} :
    core.run (k + 1) s = .next t ↔ ∃ u, step s = .next u ∧ core.run k u = .next t := by
  refine ⟨run_succ_eq_next, ?_⟩
  rintro ⟨u, hstep, hrun⟩
  exact (run_succ_of_next k hstep).trans hrun

/-- R163: no run of the machine clears or changes a set fault mark. -/
theorem run_faultMark_of_eq_some {k : Nat} {s t : State} {e : Fault} (h : core.run k s = .next t)
    (he : s.faultMark = some e) : t.faultMark = some e := by
  induction k generalizing s with
  | zero =>
    cases h
    exact he
  | succ k ih =>
    obtain ⟨u, hstep, hrun⟩ := run_succ_eq_next h
    exact ih hrun (step_faultMark_of_eq_some hstep he)

/-- R112: a run stands still in a marked state. -/
theorem runToEnd_of_faultMark_eq_some {s : State} {e : Fault} (he : s.faultMark = some e) (k : Nat) :
    runToEnd k s = .next s := by
  cases k with
  | zero => rfl
  | succ k => rw [runToEnd, he, Option.isSome_some, if_pos rfl]

/-- R112: from an unmarked state a run of `k + 1` steps is one step and a run of `k`. -/
theorem runToEnd_succ_eq_next_iff {k : Nat} {s t : State} (hs : s.faultMark = none) :
    runToEnd (k + 1) s = .next t ↔ ∃ u, step s = .next u ∧ runToEnd k u = .next t := by
  rw [runToEnd, hs, Option.isSome_none, if_neg Bool.false_ne_true]
  cases step s <;> simp

/-- Settles O23, by induction on the number of steps: from an unmarked state both runs take the same step; from a
marked one neither ends unmarked. -/
theorem unmarkedRunIsTheMachinesRun : Obligations.UnmarkedRunIsTheMachinesRun := by
  intro k
  induction k with
  | zero => exact fun s t _ => Iff.rfl
  | succ k ih =>
    intro s t ht
    cases hs : s.faultMark with
    | none =>
      rw [runToEnd_succ_eq_next_iff hs, run_succ_eq_next_iff]
      exact exists_congr fun u => and_congr_right fun _ => ih u t ht
    | some e =>
      constructor
      · intro h
        rw [runToEnd_of_faultMark_eq_some hs] at h
        cases h
        cases ht.symm.trans hs
      · intro h
        cases ht.symm.trans (run_faultMark_of_eq_some h hs)

/-! ### The step on bytes that decode -/

/-- Settles O6. -/
theorem stepRunsTheDecodedInstruction : Obligations.StepRunsTheDecodedInstruction :=
  fun _ _ _ hi h => step_of_decode hi h

/-- R81, R100: the step on the byte of a one-byte encoding runs its instruction, whatever bytes follow. -/
theorem step_of_encode_eq_singleton {s : State} {i : Instr} (hi : s.initialized = true)
    (henc : encode i = [readByte s.mem s.pc]) : step s = thenTicks i.ticks (exec i (advancePc 1 s)) := by
  have hd : decode (readBytes s.mem s.pc 1) = .ok (i, []) := by
    have h := decode_encode_append i []
    rwa [henc, List.append_nil] at h
  rw [step_of_decode hi hd, instr_length_of_encode henc, List.length_nil]

/-- R68, R81: the step on the byte of a one-byte encoding reads that byte, and then accesses the instruction's data. -/
theorem transactions_of_encode_eq_singleton {s : State} {i : Instr} (henc : encode i = [readByte s.mem s.pc]) :
    transactions s = .read s.pc (readByte s.mem s.pc) :: dataAccess i (advancePc 1 s) := by
  obtain ⟨op, d, operands, hl, hlen, rfl, hbytes⟩ := exists_descriptor_of_instr i
  obtain ⟨rfl, rfl⟩ := List.cons.inj (henc.symm.trans hbytes)
  rw [transactions_of_lookup_eq_some hl, ← hlen, advancePc_advancePc]
  rfl

/-! ### NOP -/

/-- Settles O36. -/
theorem nopChangesPcAndTicksAlone : Obligations.NopChangesPcAndTicksAlone := by
  refine ⟨⟨rfl, decode_encode_append .nop, rfl⟩, fun s => rfl, fun s hi hop => ?_⟩
  have henc : encode .nop = [readByte s.mem s.pc] := by
    rw [hop]
    rfl
  constructor
  · rw [step_of_encode_eq_singleton hi henc]
    rfl
  · rw [transactions_of_encode_eq_singleton henc, hop]
    rfl

end Sys2Proof.Proofs
end

section
/-! The ALU's rules (spec/41_alu.md): what each ALU function answers, as numbers and flags, and which of the flags that it
is given it reads. -/

namespace Sys2Proof.Proofs

open Sys2Proof.Machine Sys2Proof.Laws

/-! ### Bytes as numbers -/

/-- R120, R121: the half-carry conditions, which compare a low nibble, as arithmetic. -/
theorem lowNibble_eq_iff (v : Byte) (k : BitVec 4) : lowNibble v = k ↔ v.toNat % 16 = k.toNat := by
  rw [← BitVec.toNat_inj, lowNibble, BitVec.extractLsb'_toNat, Nat.shiftRight_zero]

/-- R9: a flag read as a number is 0 or 1. -/
@[simp] theorem bit0_toNat (b : Bool) : (bit0 b).toNat = b.toNat := by
  cases b <;> rfl

/-- R123: bit 0 of a byte as a number. -/
@[simp] theorem getBit_zero_toNat (v : Byte) : (getBit v 0).toNat = v.toNat % 2 := by
  rw [getBit, BitVec.getLsbD, Nat.toNat_testBit, Nat.pow_zero, Nat.div_one]

theorem getBit_zero_iff (v : Byte) : getBit v 0 = true ↔ v.toNat % 2 = 1 := by
  rw [← getBit_zero_toNat, Bool.toNat_eq_one]

/-- R122: the top bit of a byte, set from 128 on. -/
theorem getBit_seven_iff (v : Byte) : getBit v 7 = true ↔ 128 ≤ v.toNat := by
  rw [getBit, ← BitVec.msb_eq_getLsbD_last, BitVec.msb_eq_true_iff_two_mul_ge]
  omega

/-- R122, R123: what both rotates are made of. A value that fits below the shift is added, not mixed. -/
theorem shiftLeft_or_toNat {k : Nat} (hi lo : Byte) (hlo : lo.toNat < 2 ^ k) :
    ((hi <<< k) ||| lo).toNat = (2 ^ k * hi.toNat + lo.toNat) % 256 := by
  calc ((hi <<< k) ||| lo).toNat
      = (hi.toNat <<< k) % 2 ^ 8 ||| lo.toNat % 2 ^ 8 := by
        rw [BitVec.toNat_or, BitVec.toNat_shiftLeft, Nat.mod_eq_of_lt lo.isLt]
    _ = (2 ^ k * hi.toNat + lo.toNat) % 2 ^ 8 := by
        rw [← Nat.or_mod_two_pow, ← Nat.shiftLeft_add_eq_or_of_lt hlo, Nat.shiftLeft_eq, Nat.mul_comm]

/-! ### Increment and decrement -/

/-- Settles O30. -/
theorem incrementRule : Obligations.IncrementRule := by
  intro v fl
  refine ⟨BitVec.toNat_add v 1, ?zero, rfl, ?halfCarry, rfl⟩
  case zero => exact decide_eq_true_iff.trans BitVec.toNat_inj.symm
  case halfCarry => exact decide_eq_true_iff.trans (lowNibble_eq_iff v 0xF#4)

/-- Settles O31. -/
theorem decrementRule : Obligations.DecrementRule := by
  intro v fl
  refine ⟨?result, ?zero, rfl, ?halfCarry, rfl⟩
  case result => rw [dec8, BitVec.toNat_sub, Nat.add_comm]; rfl
  case zero => exact decide_eq_true_iff.trans BitVec.toNat_inj.symm
  case halfCarry => exact decide_eq_true_iff.trans (lowNibble_eq_iff v 0x0#4)

/-! ### Rotates -/

/-- Settles O32: the old carry stands below `v` shifted by one. -/
theorem rotateLeftRule : Obligations.RotateLeftRule := by
  intro v fl
  have hcarry : (bit0 fl.c).toNat < 2 ^ 1 := by
    rw [bit0_toNat]
    exact Bool.toNat_lt fl.c
  have hresult : (rl8 v fl).1.toNat = (2 * v.toNat + fl.c.toNat) % 256 := by
    rw [rl8, shiftLeft_or_toNat v _ hcarry, bit0_toNat, Nat.pow_one]
  exact ⟨hresult, rfl, rfl, rfl, getBit_seven_iff v⟩

/-- R123: in each mode, the entering bit is put at bit 7 above half of the byte. -/
theorem rr8_toNat (mode : RotRightMode) (v : Byte) (fl : Flags) :
    (rr8 mode v fl).1.toNat = 128 * (rotRightIn mode v fl).toNat + v.toNat / 2 := by
  have hhalf : (v >>> 1).toNat = v.toNat / 2 := by
    rw [BitVec.toNat_ushiftRight, Nat.shiftRight_one]
  have hv := v.isLt
  have hin := Bool.toNat_lt (rotRightIn mode v fl)
  rw [rr8, shiftLeft_or_toNat _ _ (by omega), bit0_toNat, hhalf]
  omega

/-- Settles O33: the result of either mode by the bit that enters; the flags by bit 0 alone. -/
theorem rotateRightRuleInBothModes : Obligations.RotateRightRuleInBothModes := by
  intro v fl
  refine ⟨rr8_toNat .throughCarry v fl, ?circular, fun mode => ⟨rfl, rfl, rfl, getBit_zero_iff v⟩⟩
  rw [rr8_toNat, rotRightIn, getBit_zero_toNat]

/-! ### Word addition -/

/-- R124: the mask of the half-carry condition keeps the low 12 bits. -/
theorem and_0x0FFF_toNat (a : Word) : (a &&& 0x0FFF#16).toNat = a.toNat % 4096 :=
  (BitVec.toNat_and a 0x0FFF#16).trans (Nat.and_two_pow_sub_one_eq_mod a.toNat 12)

/-- Settles O34. -/
theorem wordAdditionRule : Obligations.WordAdditionRule := by
  intro a b fl
  refine ⟨BitVec.toNat_add a b, rfl, rfl, ?halfCarry, decide_eq_true_iff⟩
  rw [and_0x0FFF_toNat, and_0x0FFF_toNat]
  exact decide_eq_true_iff

/-! ### The flags that are read -/

/-- Settles O35: each function mentions, of the flags it is given, at most the one that the hypothesis is about. -/
theorem aluFunctionsReadOnlyTheFlagsTheyUse : Obligations.AluFunctionsReadOnlyTheFlagsTheyUse := by
  refine ⟨fun v fl fl' hc => ⟨?inc, ?dec, ?rl, ?rr⟩, fun v fl fl' => rfl, fun a b fl fl' hz => ?add⟩
  case inc => rw [inc8, inc8, hc]
  case dec => rw [dec8, dec8, hc]
  case rl => rw [rl8, rl8, hc]
  case rr => rw [rr8, rr8, rotRightIn, rotRightIn, hc]
  case add => rw [add16, add16, hz]

end Sys2Proof.Proofs
end

section
/-! Loads and stores (spec/42_loads_stores.md): what an 8-bit register load and a word store can do, and with them each
load and store's encoding, ticks, result and frame. -/

namespace Sys2Proof.Proofs

open Sys2Proof.Machine Sys2Proof.Laws

/-- R80, R106: the encoder, the decoder and the descriptor table say the same of every instruction. -/
theorem codedAs_encode (i : Instr) : CodedAs i (encode i) i.ticks :=
  ⟨rfl, decode_encode_append i, rfl⟩

/-- R22: what a write of a register other than F can do: the register takes the value; all else is as it was. -/
theorem set8_spec (r : Reg8) (v : Byte) (s : State) (h : r ≠ .f) :
    get8 r (set8 r v s) = v ∧ SameRegsExcept [r] s (set8 r v s) ∧ SameControl s (set8 r v s) ∧
    SameMemory s (set8 r v s) := by
  refine ⟨(get8_set8_self r v s).trans (if_neg h), fun q hq => ?frame, ?control, fun a => ?memory⟩
  case frame => exact get8_set8_ne r q v s (List.ne_of_not_mem_cons hq)
  case control => exact ⟨set8_sp r v s, set8_pc r v s, set8_ticks r v s, set8_initialized r v s, set8_faultMark r v s⟩
  case memory => rw [set8_mem]

/-- R54: what a word store can do: its two bytes read low byte first; all else is as it was. -/
theorem storeWord_spec (m : AddrMode) (v : Word) (s : State) :
    readByte (storeWord m v s).mem (effectiveAddress m s) = loByte v ∧
    readByte (storeWord m v s).mem (effectiveAddress m s + 1) = hiByte v ∧
    SameMemoryExcept [effectiveAddress m s, effectiveAddress m s + 1] s (storeWord m v s) ∧
    SameRegsExcept [] s (storeWord m v s) ∧ SameControl s (storeWord m v s) := by
  obtain ⟨-, hlow, hhigh, hother⟩ := wordsAreLittleEndianAtEveryAddress s.mem (effectiveAddress m s) v
  refine ⟨hlow, hhigh, fun a ha => ?memory, fun r _ => ?regs, ⟨rfl, rfl, rfl, rfl, rfl⟩⟩
  case memory =>
    obtain ⟨hne, hne'⟩ : a ≠ effectiveAddress m s ∧ a ≠ effectiveAddress m s + 1 := by simpa using ha
    exact hother a hne hne'
  case regs => cases r <;> rfl

/-- Settles O37. -/
theorem ldBcD16LoadsThePair : Obligations.LdBcD16LoadsThePair := by
  intro d16 s
  obtain ⟨hb, hc, hregs, hcontrol, hmem⟩ := setPair_spec .bc d16 s (by decide)
  exact ⟨codedAs_encode (.ldBcD16 d16), setPair .bc d16 s, rfl, getPair_setPair_self .bc d16 s, hb, hc, hregs, hcontrol,
    hmem⟩

/-- Settles O38: each form is one register write. -/
theorem ldBD8AndLdCD8LoadTheRegister : Obligations.LdBD8AndLdCD8LoadTheRegister := fun d8 s =>
  ⟨codedAs_encode (.ldBD8 d8), codedAs_encode (.ldCD8 d8),
    ⟨set8 .b d8 s, rfl, set8_spec .b d8 s (by decide)⟩, ⟨set8 .c d8 s, rfl, set8_spec .c d8 s (by decide)⟩⟩

/-- Settles O39. -/
theorem ldIBcAStoresTheAccumulator : Obligations.LdIBcAStoresTheAccumulator := fun s =>
  ⟨codedAs_encode .ldIBcA, effectiveAddress_indirectBc s, storeByte .indirectBc s.a s, rfl,
    storeByte_spec .indirectBc s.a s⟩

/-- Settles O40. -/
theorem ldIA16SpStoresTheStackPointer : Obligations.LdIA16SpStoresTheStackPointer := fun a16 s =>
  ⟨codedAs_encode (.ldIA16Sp a16), effectiveAddress_absolute a16 s, storeWord (.absolute a16) s.sp s, rfl,
    storeWord_spec (.absolute a16) s.sp s⟩

/-- Settles O41: the byte at BC is read, and A written with it. -/
theorem ldAIBcLoadsTheAccumulator : Obligations.LdAIBcLoadsTheAccumulator := fun s =>
  ⟨codedAs_encode .ldAIBc, set8 .a (loadByte .indirectBc s) s, rfl, set8_spec .a (loadByte .indirectBc s) s (by decide)⟩

end Sys2Proof.Proofs
end

section
/-! Increments and decrements (spec/43_inc_dec.md): what writing a moved pair and counting a register can do, and with
them each form's encoding, ticks, result, flags and frame. -/

namespace Sys2Proof.Proofs

open Sys2Proof.Machine Sys2Proof.Laws

/-! ### Pair forms -/

/-- R25: what a write of a pair other than AF can do, with the pair read back as one word. -/
theorem setPair_getPair_spec (p : Pair) (v : Word) (s : State) (h : p ≠ .af) :
    getPair p (setPair p v s) = v ∧ SameRegsExcept [p.high, p.low] s (setPair p v s) ∧
    SameControl s (setPair p v s) ∧ SameMemory s (setPair p v s) := by
  obtain ⟨-, -, hframe⟩ := setPair_spec p v s h
  exact ⟨(getPair_setPair_self p v s).trans (if_neg h), hframe⟩

/-- Settles O42: each form writes BC with the word next to the one it read. -/
theorem incBcAndDecBcMoveThePairByOne : Obligations.IncBcAndDecBcMoveThePairByOne := by
  intro s
  obtain ⟨hinc, hincFrame⟩ := setPair_getPair_spec .bc (getPair .bc s + 1) s (by decide)
  obtain ⟨hdec, hdecFrame⟩ := setPair_getPair_spec .bc (getPair .bc s - 1) s (by decide)
  refine ⟨codedAs_encode .incBc, codedAs_encode .decBc, ⟨_, rfl, ?inc, hincFrame⟩, ⟨_, rfl, ?dec, hdecFrame⟩⟩
  case inc => rw [hinc, BitVec.toNat_add]; rfl
  case dec => rw [hdec, BitVec.toNat_sub, Nat.add_comm]; rfl

/-! ### Register forms -/

/-- What R120 and R121 share: the byte moves by `k` modulo 2^8, Z says whether the result is 0, N is `n`, H says
whether the old low nibble is `nibble`, and C is kept. -/
def CountRule (op : Byte → Flags → Byte × Flags) (k : Nat) (n : Bool) (nibble : Nat) : Prop :=
  ∀ (v : Byte) (fl : Flags),
    (op v fl).1.toNat = (v.toNat + k) % 256 ∧ ((op v fl).2.z = true ↔ (op v fl).1.toNat = 0) ∧
    (op v fl).2.n = n ∧ ((op v fl).2.h = true ↔ v.toNat % 16 = nibble) ∧ (op v fl).2.c = fl.c

theorem countRule_inc8 : CountRule inc8 1 false 15 := incrementRule

theorem countRule_dec8 : CountRule dec8 255 true 0 := decrementRule

/-- R142 to R145: what counting a register other than F can do: the register and the flags move by the rule; all else
is as it was. -/
theorem aluReg_spec_of_countRule {op : Byte → Flags → Byte × Flags} {k : Nat} {n : Bool} {nibble : Nat}
    (hrule : CountRule op k n nibble) (r : Reg8) (s : State) (h : r ≠ .f) :
    (get8 r (aluReg op r s)).toNat = ((get8 r s).toNat + k) % 256 ∧
    (flagZ (aluReg op r s) = true ↔ get8 r (aluReg op r s) = 0x00#8) ∧ flagN (aluReg op r s) = n ∧
    (flagH (aluReg op r s) = true ↔ (get8 r s).toNat % 16 = nibble) ∧ flagC (aluReg op r s) = flagC s ∧
    SameNibble s (aluReg op r s) ∧ SameRegsExcept [r, .f] s (aluReg op r s) ∧
    SameControl s (aluReg op r s) ∧ SameMemory s (aluReg op r s) := by
  obtain ⟨hreg, hflags, hframe⟩ := aluReg_spec op r s h
  obtain ⟨hresult, hz, hn, hh, hc⟩ := hrule (get8 r s) (getFlags s)
  rw [flagZ, flagN, flagH, flagC, hreg, hflags]
  exact ⟨hresult, hz.trans (BitVec.toNat_inj (y := 0x00#8)), hn, hh, hc, hframe⟩

/-- Settles O43. -/
theorem incBAndIncCIncrementTheRegister : Obligations.IncBAndIncCIncrementTheRegister := fun s =>
  ⟨codedAs_encode .incB, codedAs_encode .incC,
    ⟨aluReg inc8 .b s, rfl, aluReg_spec_of_countRule countRule_inc8 .b s (by decide)⟩,
    ⟨aluReg inc8 .c s, rfl, aluReg_spec_of_countRule countRule_inc8 .c s (by decide)⟩⟩

/-- Settles O44. -/
theorem decBAndDecCDecrementTheRegister : Obligations.DecBAndDecCDecrementTheRegister := fun s =>
  ⟨codedAs_encode .decB, codedAs_encode .decC,
    ⟨aluReg dec8 .b s, rfl, aluReg_spec_of_countRule countRule_dec8 .b s (by decide)⟩,
    ⟨aluReg dec8 .c s, rfl, aluReg_spec_of_countRule countRule_dec8 .c s (by decide)⟩⟩

end Sys2Proof.Proofs
end

section
/-! Accumulator rotates and pair addition (spec/44_rotate_add.md): each form's encoding, ticks, bus transactions, result,
flags and frame, and that nine left rotates restore the accumulator and the carry flag. -/

namespace Sys2Proof.Proofs

open Sys2Proof.Machine Sys2Proof.Laws

/-! ### Frames, composed -/

/-- All that an instruction which writes flags and the registers `rs` leaves as it was. -/
structure KeepsAllBut (rs : List Reg8) (s t : State) : Prop where
  nibble : SameNibble s t
  regs : SameRegsExcept rs s t
  control : SameControl s t
  memory : SameMemory s t

theorem KeepsAllBut.refl (rs : List Reg8) (s : State) : KeepsAllBut rs s s :=
  ⟨rfl, fun _ _ => rfl, ⟨rfl, rfl, rfl, rfl, rfl⟩, fun _ => rfl⟩

theorem KeepsAllBut.trans {rs : List Reg8} {s t u : State} (hst : KeepsAllBut rs s t) (htu : KeepsAllBut rs t u) :
    KeepsAllBut rs s u where
  nibble := htu.nibble.trans hst.nibble
  regs r hr := (htu.regs r hr).trans (hst.regs r hr)
  control :=
    ⟨htu.control.sp.trans hst.control.sp, htu.control.pc.trans hst.control.pc,
      htu.control.ticks.trans hst.control.ticks, htu.control.initialized.trans hst.control.initialized,
      htu.control.faultMark.trans hst.control.faultMark⟩
  memory a := (htu.memory a).trans (hst.memory a)

theorem KeepsAllBut.mono {rs rs' : List Reg8} {s t : State} (h : KeepsAllBut rs s t) (hsub : rs ⊆ rs') :
    KeepsAllBut rs' s t :=
  ⟨h.nibble, fun r hr => h.regs r fun hmem => hr (hsub hmem), h.control, h.memory⟩

/-! ### Nine left rotates -/

/-- R122: the carry flag enters at bit 0. -/
theorem getBit_rl8_zero (v : Byte) (fl : Flags) : getBit (rl8 v fl).1 0 = fl.c := by
  cases hc : fl.c <;> simp [rl8, getBit, bit0, hc]

/-- R122: every other bit comes from the place below. -/
theorem getBit_rl8_succ (v : Byte) (fl : Flags) {i : Nat} (hi : i + 1 < 8) :
    getBit (rl8 v fl).1 (i + 1) = getBit v i := by
  have hcarry : (bit0 fl.c).getLsbD (i + 1) = false := by
    cases fl.c <;> simp [bit0]
  rw [rl8, getBit, BitVec.getLsbD_or, BitVec.getLsbD_shiftLeft, hcarry]
  simp [getBit, hi]

/-- R122: the nine bits that a left rotate moves, the carry flag above the accumulator. -/
def nineBits (s : State) : List Bool :=
  [flagC s, getBit s.a 7, getBit s.a 6, getBit s.a 5, getBit s.a 4, getBit s.a 3, getBit s.a 2, getBit s.a 1,
    getBit s.a 0]

theorem eq_of_nineBits_eq {s t : State} (h : nineBits t = nineBits s) : t.a = s.a ∧ flagC t = flagC s := by
  simp only [nineBits, List.cons.injEq, and_true] at h
  obtain ⟨hc, h7, h6, h5, h4, h3, h2, h1, h0⟩ := h
  refine ⟨BitVec.eq_of_getLsbD_eq fun i hi => ?_, hc⟩
  interval_cases i <;> assumption

/-- R150: RLCA is a rotation of the nine bits by one place. -/
theorem nineBits_aluReg_rl8 (s : State) : nineBits (aluReg rl8 .a s) = (nineBits s).rotate 1 := by
  obtain ⟨ha, hflags, -⟩ := aluReg_spec rl8 .a s (by decide)
  change (aluReg rl8 .a s).a = (rl8 s.a (getFlags s)).1 at ha
  have hout : flagC (aluReg rl8 .a s) = getBit s.a 7 := congrArg Flags.c hflags
  have hin : (getFlags s).c = flagC s := rfl
  simp [nineBits, hout, ha, getBit_rl8_zero, getBit_rl8_succ, hin]

theorem execTimes_succ_of_exec {i : Instr} {s t : State} (h : exec i s = .next t) (k : Nat) :
    execTimes i (k + 1) s = execTimes i k t := by
  rw [execTimes, h]

/-- `k` times RLCA is a rotation of the nine bits by `k` places, and leaves all else as it was. -/
theorem execTimes_rlca_spec (k : Nat) (s : State) :
    ∃ t, execTimes .rlca k s = .next t ∧ nineBits t = (nineBits s).rotate k ∧ KeepsAllBut [.a, .f] s t := by
  induction k generalizing s with
  | zero => exact ⟨s, rfl, (List.rotate_zero _).symm, .refl _ s⟩
  | succ k ih =>
    obtain ⟨-, -, hnibble, hregs, hcontrol, hmem⟩ := aluReg_spec rl8 .a s (by decide)
    obtain ⟨t, hexec, hbits, hkeeps⟩ := ih (aluReg rl8 .a s)
    refine ⟨t, (execTimes_succ_of_exec rfl k).trans hexec, ?_, .trans ⟨hnibble, hregs, hcontrol, hmem⟩ hkeeps⟩
    rw [hbits, nineBits_aluReg_rl8, List.rotate_rotate, Nat.add_comm]

/-- Settles O46: a rotation of nine bits by nine places is none. -/
theorem nineRlcaRestoreTheAccumulator : Obligations.NineRlcaRestoreTheAccumulator := by
  intro s
  obtain ⟨t, hexec, hbits, hnibble, hregs, hcontrol, hmem⟩ := execTimes_rlca_spec 9 s
  obtain ⟨ha, hc⟩ := eq_of_nineBits_eq (hbits.trans (List.rotate_length (nineBits s)))
  refine ⟨t, hexec, ha, hc, fun r hr => ?regs, hnibble, hcontrol, hmem⟩
  by_cases hra : r = .a
  · rw [hra]
    exact ha
  · exact hregs r (List.not_mem_cons_of_ne_of_not_mem hra hr)

/-! ### The opcode read alone -/

/-- R59, R68: the step on the byte of a one-byte encoding whose instruction accesses no data. -/
theorem transactions_eq_opcode_read {i : Instr} {op : Byte} {s : State} (henc : encode i = [op])
    (hdata : ∀ u, dataAccess i u = []) (hop : readByte s.mem s.pc = op) : transactions s = [.read s.pc op] := by
  subst hop
  rw [transactions_of_encode_eq_singleton henc, hdata]

/-! ### One rotate -/

/-- Settles O45: the rotate rule applied to A, and a frame that every byte operation has. -/
theorem rlcaRotatesLeftThroughCarry : Obligations.RlcaRotatesLeftThroughCarry := by
  refine ⟨codedAs_encode .rlca, fun s => transactions_eq_opcode_read (i := .rlca) rfl fun _ => rfl,
    fun s => ⟨aluReg rl8 .a s, rfl, ?_⟩⟩
  obtain ⟨ha, hflags, hframe⟩ := aluReg_spec rl8 .a s (by decide)
  obtain ⟨hresult, hz, hn, hh, hc⟩ := rotateLeftRule s.a (getFlags s)
  rw [flagZ, flagN, flagH, flagC, flagC, hflags]
  exact ⟨(congrArg BitVec.toNat ha).trans hresult, hc, hz, hn, hh, hframe⟩

/-- R123: a number put together from bit 7 and the seven bits below it, taken apart again. -/
theorem low_and_top_of_eq_add {n m : Nat} {c : Bool} (h : n = 128 * c.toNat + m) (hm : m < 128) :
    n % 128 = m ∧ (128 ≤ n ↔ c = true) := by
  have hc := Bool.toNat_lt c
  rw [← Bool.toNat_eq_one]
  omega

/-- Settles O47: the result of the mode the spec takes, the old carry above the upper seven bits of A. -/
theorem rrcaRotatesRight : Obligations.RrcaRotatesRight := by
  refine fun s => ⟨codedAs_encode .rrca, aluReg (rr8 rotRightMode) .a s, rfl, ?_⟩
  obtain ⟨ha, hflags, hframe⟩ := aluReg_spec (rr8 rotRightMode) .a s (by decide)
  obtain ⟨hresult, -, hmodes⟩ := rotateRightRuleInBothModes s.a (getFlags s)
  obtain ⟨hz, hn, hh, hc⟩ := hmodes rotRightMode
  have hlt := s.a.isLt
  obtain ⟨hlow, htop⟩ := low_and_top_of_eq_add ((congrArg BitVec.toNat ha).trans hresult) (by omega)
  rw [flagZ, flagN, flagH, flagC, flagC, hflags]
  exact ⟨hlow, htop, hc, hz, hn, hh, hframe⟩

/-! ### Pair addition -/

/-- R9, R152: what a write of N, H and C can do to the rest of the state. -/
theorem keepsAllBut_setFlagsNHC (fl : Flags) (s : State) : KeepsAllBut [.f] s (setFlagsNHC fl s) := by
  refine ⟨lowNibble_setFlagsNHC fl s, fun r hr => ?regs, ⟨rfl, rfl, rfl, rfl, rfl⟩, fun _ => rfl⟩
  cases r with
  | f => exact absurd (List.mem_singleton_self _) hr
  | _ => rfl

/-- R25, R152: what a write of HL and then of N, H and C can do. -/
theorem setFlagsNHC_setPair_hl_spec (fl : Flags) (v : Word) (s : State) :
    getPair .hl (setFlagsNHC fl (setPair .hl v s)) = v ∧
    getFlags (setFlagsNHC fl (setPair .hl v s)) = ⟨flagZ s, fl.n, fl.h, fl.c⟩ ∧
    KeepsAllBut [.h, .l, .f] s (setFlagsNHC fl (setPair .hl v s)) := by
  obtain ⟨hpair, hregs, hcontrol, hmem⟩ := setPair_getPair_spec .hl v s (by decide)
  have hkeeps : KeepsAllBut [.h, .l] s (setPair .hl v s) := ⟨rfl, hregs, hcontrol, hmem⟩
  exact ⟨hpair, getFlags_setFlagsNHC fl (setPair .hl v s),
    (hkeeps.mono (by decide)).trans ((keepsAllBut_setFlagsNHC fl _).mono (by decide))⟩

/-- R152: ADD HL,BC is a write of the sum to HL and of its N, H and C to F. -/
theorem exec_addHlBc (s : State) :
    exec .addHlBc s = .next (setFlagsNHC (add16 (getPair .hl s) (getPair .bc s) (getFlags s)).2
      (setPair .hl (add16 (getPair .hl s) (getPair .bc s) (getFlags s)).1 s)) := rfl

/-- Settles O48: the sum and its carries by the addition rule, and Z by the flag write that leaves it out. -/
theorem addHlBcAddsThePairs : Obligations.AddHlBcAddsThePairs := by
  refine ⟨codedAs_encode .addHlBc, fun s => transactions_eq_opcode_read (i := .addHlBc) rfl fun _ => rfl,
    fun s => ⟨_, exec_addHlBc s, ?_⟩⟩
  obtain ⟨hsum, -, hn, hh, hc⟩ := wordAdditionRule (getPair .hl s) (getPair .bc s) (getFlags s)
  rw [and_0x0FFF_toNat, and_0x0FFF_toNat] at hh
  obtain ⟨hpair, hflags, hnibble, hregs, hcontrol, hmem⟩ := setFlagsNHC_setPair_hl_spec _ _ s
  rw [hpair, flagZ, flagN, flagH, flagC, hflags]
  exact ⟨hsum, rfl, hn, hh, hc, hnibble, hregs, hcontrol, hmem⟩

end Sys2Proof.Proofs
end

section
/-! Exceptions and the host interface (spec/60_exceptions.md): that an initialised engine always steps, when a step raises
UnmappedOpcode and what it leaves in the fault mark, the error that ends a run, and what `initialize()` and `step()`
hand back. -/

namespace Sys2Proof.Proofs

open Sys2Proof.Machine Sys2Proof.Laws

/-! ### An initialised engine always steps -/

/-- R37: a step that answers a state is a step of an initialised engine, and leaves it initialised. -/
theorem step_initialized {s t : State} (h : step s = .next t) : t.initialized = true := by
  obtain ⟨hi, ⟨-, rfl⟩ | ⟨d, u, -, hu, rfl⟩⟩ := step_cases h
  · exact hi
  · obtain ⟨-, -, -, -, -, hinit, -⟩ := exec_keeps hu
    exact hinit.trans hi

/-- Settles O12: the step answers a state whether or not the opcode byte has a descriptor. -/
theorem initialisedStepAlwaysAnswersAState : Obligations.InitialisedStepAlwaysAnswersAState := by
  intro s hi
  have hstep : ∃ t, step s = .next t := by
    cases hl : lookup (readByte s.mem s.pc) with
    | none => exact ⟨_, step_of_lookup_eq_none hi hl⟩
    | some d =>
      obtain ⟨t, h, -⟩ := exists_step_adding_ticks hi hl
      exact ⟨t, h⟩
  obtain ⟨t, h⟩ := hstep
  exact ⟨t, h, step_initialized h⟩

/-! ### The error a step raises, and the fault mark -/

/-- R160: `raised`, decided by the fetched byte itself. -/
theorem raised_eq_ite (s : State) :
    raised s = if (readByte s.mem s.pc).toNat < 16 then none
      else some (.unmappedOpcode (readByte s.mem s.pc) s.pc) := by
  cases hl : lookup (readByte s.mem s.pc) with
  | none =>
    have hop : ¬ (readByte s.mem s.pc).toNat < 16 := Nat.not_lt.mpr ((lookup_eq_none_iff _).mp hl)
    rw [raised_of_lookup_eq_none hl, if_neg hop]
  | some d =>
    have hop : (readByte s.mem s.pc).toNat < 16 := by
      simpa [hl] using lookup_isSome_iff (readByte s.mem s.pc)
    rw [raised_of_lookup_eq_some hl, if_pos hop]

/-- R163: a step from a clear fault mark leaves in it the error that the step raised, if any. -/
theorem step_faultMark_of_eq_none {s t : State} (h : step s = .next t) (hs : s.faultMark = none) :
    t.faultMark = raised s := by
  obtain ⟨-, ⟨hl, rfl⟩ | ⟨d, u, hl, hu, rfl⟩⟩ := step_cases h
  · rw [raised_of_lookup_eq_none hl, raiseUnmappedOpcode_faultMark, advancePc_faultMark, hs, Option.none_or,
      unmappedFault_advancePc_one]
  · obtain ⟨-, -, -, -, -, -, hmark⟩ := exec_keeps hu
    rw [raised_of_lookup_eq_some hl]
    exact hmark.trans hs

/-- Settles O8. -/
theorem unmappedOpcodeStepConsumesOneByte : Obligations.UnmappedOpcodeStepConsumesOneByte := by
  intro s hi hop
  have hl : lookup (readByte s.mem s.pc) = none := (lookup_eq_none_iff _).mpr hop
  have hstep := step_of_lookup_eq_none hi hl
  have hregs : SameRegsExcept [] s (raiseUnmappedOpcode (readByte s.mem s.pc) (advancePc 1 s)) := by
    intro r _
    cases r <;> rfl
  exact ⟨_, hstep, rfl, hregs, rfl, rfl, rfl, hi,
    fun hs => (step_faultMark_of_eq_none hstep hs).trans (raised_of_lookup_eq_none hl),
    transactions_of_lookup_eq_none hl⟩

/-- Settles O9. -/
theorem faultMarkIsKeptByEveryStep : Obligations.FaultMarkIsKeptByEveryStep :=
  fun _ _ _ h he => step_faultMark_of_eq_some h he

/-- Settles O10: the mark after the step is the error raised, and the fetched byte decides whether there is one. -/
theorem faultMarkIsSetByUnmappedOpcodesAlone : Obligations.FaultMarkIsSetByUnmappedOpcodesAlone := by
  intro s t h hs
  rw [step_faultMark_of_eq_none h hs, raised_eq_ite]
  split
  · next hop => exact iff_of_true rfl hop
  · next hop => exact iff_of_false (Option.some_ne_none _) hop

/-! ### The error that ends a run -/

/-- R161, R162: after the step that sets the mark, PC is one past the offending byte and memory still holds that byte. -/
theorem error_of_step_recomputable {s t : State} {op : Byte} {addr : Word} (h : step s = .next t)
    (hs : s.faultMark = none) (ht : t.faultMark = some (.unmappedOpcode op addr)) :
    addr = t.pc - 1 ∧ op = readByte t.mem addr := by
  have hraised : raised s = some (.unmappedOpcode op addr) := (step_faultMark_of_eq_none h hs).symm.trans ht
  obtain ⟨-, ⟨hl, rfl⟩ | ⟨d, u, hl, -, -⟩⟩ := step_cases h
  · rw [raised_of_lookup_eq_none hl] at hraised
    cases hraised
    exact ⟨(BitVec.add_sub_cancel s.pc 1).symm, rfl⟩
  · rw [raised_of_lookup_eq_some hl] at hraised
    cases hraised

/-- Settles O22, by induction on the number of steps: the run goes on while the mark is clear, and stands still after the
step that sets it. -/
theorem errorOfARunIsRecomputable : Obligations.ErrorOfARunIsRecomputable := by
  intro k
  induction k with
  | zero =>
    intro s t op addr hs hrun ht
    cases hrun
    cases hs.symm.trans ht
  | succ k ih =>
    intro s t op addr hs hrun ht
    obtain ⟨u, hstep, hrun⟩ := (runToEnd_succ_eq_next_iff hs).mp hrun
    cases hu : u.faultMark with
    | none => exact ih u t op addr hu hrun ht
    | some e =>
      rw [runToEnd_of_faultMark_eq_some hu] at hrun
      cases hrun
      exact error_of_step_recomputable hstep hs ht

/-! ### The host interface -/

/-- R177: what `step()` hands back beside the state is the error that the step raised, if any. -/
theorem frontStep_of_step_eq_next {s t : State} (h : step s = .next t) : frontStep s = .next (t, raised s) := by
  rw [frontStep, h]

/-- Settles O50. -/
theorem stepHandsBackSuccessOrTheError : Obligations.StepHandsBackSuccessOrTheError := by
  intro s t h
  rw [frontStep_of_step_eq_next h, raised_eq_ite]

theorem hostInit_of_not_initialized {s : State} (h : s.initialized = false) :
    hostInit s = .next { State.reset with mem := s.mem } := by
  rw [hostInit, h, if_neg Bool.false_ne_true]

theorem hostInit_of_initialized {s : State} (h : s.initialized = true) :
    hostInit s = .refused .alreadyInitialized := by
  rw [hostInit, if_pos h]

/-- R37: `initialize()` leaves the system initialised. -/
theorem initialized_of_hostInit_eq_next {s t : State} (h : hostInit s = .next t) : t.initialized = true := by
  cases hs : s.initialized with
  | false =>
    rw [hostInit_of_not_initialized hs] at h
    cases h
    rfl
  | true =>
    rw [hostInit_of_initialized hs] at h
    cases h

/-- Settles O49. -/
theorem initialisationHappensOnce : Obligations.InitialisationHappensOnce :=
  ⟨fun _ h => hostInit_of_not_initialized h,
    fun _ _ h => hostInit_of_initialized (initialized_of_hostInit_eq_next h)⟩

end Sys2Proof.Proofs
end

section
/-! Reset and timing (spec/70_reset_and_hazards.md): the refusal of a step before `initialize()`, the declared lengths and
tick costs, and that neither TICKS nor the fault mark has an effect on a step. -/

namespace Sys2Proof.Proofs

open Sys2Proof.Machine Sys2Proof.Laws

/-! ### TICKS and the fault mark -/

/-- A state with other values in TICKS and the fault mark. -/
def withTicksMark (n : Ticks) (m : Option Fault) (s : State) : State := { s with ticks := n, faultMark := m }

/-- R105, R198: no operation reads or writes TICKS or the fault mark. -/
theorem exec_withTicksMark (n : Ticks) (m : Option Fault) {i : Instr} {s t : State} (h : exec i s = .next t) :
    exec i (withTicksMark n m s) = .next (withTicksMark n m t) := by
  cases i <;> cases h <;> rfl

theorem addTicks_withTicksMark (k : Nat) (n : Ticks) (m : Option Fault) (s : State) :
    addTicks k (withTicksMark n m s) = withTicksMark (n + BitVec.ofNat 64 k) m (addTicks k s) := rfl

theorem raiseUnmappedOpcode_withTicksMark (op : Byte) (n : Ticks) (m : Option Fault) (s : State) :
    raiseUnmappedOpcode op (withTicksMark n m s) =
      withTicksMark n (m.or (some (unmappedFault op s))) (raiseUnmappedOpcode op s) := rfl

/-- Settles O21: the step fetches the same bytes and runs the same operation. An UnmappedOpcode step adds nothing to
either tick count and offers the mark the same error; any other step adds its descriptor's cost to either count and
leaves the mark. -/
theorem ticksAndMarkInfluenceNothing : Obligations.TicksAndMarkInfluenceNothing := by
  intro s t n m h
  change ∃ m', step (withTicksMark n m s) = .next (withTicksMark (n + (t.ticks - s.ticks)) m' t)
  obtain ⟨hi, ⟨hl, rfl⟩ | ⟨d, u, hl, hu, rfl⟩⟩ := step_cases h
  · refine ⟨m.or (some (unmappedFault (readByte s.mem s.pc) (advancePc 1 s))), ?_⟩
    rw [raiseUnmappedOpcode_ticks, advancePc_ticks, BitVec.sub_self, BitVec.add_zero,
      ← raiseUnmappedOpcode_withTicksMark]
    exact step_of_lookup_eq_none (s := withTicksMark n m s) hi hl
  · have hticks : (addTicks d.ticks u).ticks - s.ticks = BitVec.ofNat 64 d.ticks := by
      obtain ⟨-, -, hkept, -⟩ := exec_keeps hu
      rw [addTicks_ticks, hkept, advancePc_ticks, advancePc_ticks, BitVec.add_comm, BitVec.add_sub_cancel]
    refine ⟨m, ?_⟩
    rw [hticks, ← addTicks_withTicksMark]
    exact step_of_lookup_eq_some (s := withTicksMark n m s) hi hl (exec_withTicksMark n m hu)

/-! ### Lengths and tick costs -/

/-- Settles O5. -/
theorem descriptorsHaveTheDeclaredLengthsAndTicks : Obligations.DescriptorsHaveTheDeclaredLengthsAndTicks :=
  lookup_map_length_ticks

/-! ### Before `initialize()` -/

/-- Settles O11. -/
theorem stepBeforeInitialisationIsRefused : Obligations.StepBeforeInitialisationIsRefused := by
  intro s h
  rw [step, h, if_neg Bool.false_ne_true]

end Sys2Proof.Proofs
end
